-- ==== Sys2Proof/Word.lean ====
section
/-! DEFINITION. The bit-vector types of the block: every value is an unsigned number of a stated width
(00_scope.md R7, R10). -/

namespace Sys2Proof

/-- `u8` (R10): an input byte, and one byte of `DOUT`. -/
abbrev Byte := BitVec 8

/-- `u32` (R10): `ACC32`, `ACC64_LO`, `ACC64_HI`. -/
abbrev Word32 := BitVec 32

/-- `u64` (R10): the value `ACC64`, and `RES`. -/
abbrev Word64 := BitVec 64

/-- A command word: `CMD_BITS` = 16 (R8, R15, R60). -/
abbrev CmdWord := BitVec 16

end Sys2Proof
end

