-- ==== Sys2Proof/Syntax.lean ====
section
/-! DEFINITION. The commands of the block, one constructor per row of spec/opcode_table.json, and the closed sets of names
the spec uses for variants, orderings, widths and fault causes. -/

namespace Sys2Proof

/-- The three variants of the Variant Policy (42_variant_policy.md R110; 00_scope.md R3). -/
inductive Variant where
  | orig   -- "original", V = 0
  | rev    -- "revised", V = 1
  | revx   -- "revised-early-XOR", V = 2
  deriving DecidableEq, Repr

/-- The per-byte orderings: a closed choice of two (R111, R112; glossary R17). -/
inductive StepOrder where
  | mtx   -- multiply-then-XOR
  | xtm   -- XOR-then-multiply
  deriving DecidableEq, Repr

/-- The two accumulator widths (00_scope.md R7). -/
inductive Width where
  | w32
  | w64
  deriving DecidableEq, Repr

/-- The fault causes (60_exceptions.md R171). Codes 0 and 5 to 7 of `STATUS.CAUSE` are raised by nothing, so they name no
cause (93_implementation_defined.md U6). -/
inductive FaultCause where
  | illegalOpcode
  | reservedBits
  | reservedVariant
  | notInitialised
  deriving DecidableEq, Repr

/-- The six commands (30_encoding.md R63). An operand is the raw field of the word (R64): `init` carries the 2-bit code
`V`, of which 3 is reserved (R67; `Instr.wellFormed`). -/
inductive Instr where
  | init (v : BitVec 2)    -- INIT V, R113
  | absorb (b : Byte)      -- ABSORB B, R115
  | digest32               -- R134
  | digest64               -- R135
  | rdacc32                -- R136
  | rdacc64                -- R137
  deriving DecidableEq, Repr

end Sys2Proof
end

