-- ==== Sys2Proof/WellFormed.lean ====
section
/-! DEFINITION. Which terms of `Instr` are commands of the block: the ones some legal command word stands for
(30_encoding.md R63). -/

namespace Sys2Proof

/-- The one operand value the spec shuts out is the reserved variant code `V = 3` (R64, R67); every byte is a legal
operand of ABSORB (R64), and the other commands have no operand. -/
def Instr.wellFormed : Instr → Bool
  | .init v => v != 3#2
  | .absorb _ => true
  | .digest32 => true
  | .digest64 => true
  | .rdacc32 => true
  | .rdacc64 => true

end Sys2Proof
end

