-- ==== Sys2Proof/Decode.lean ====
section
/-! DEFINITION. The decoder (30_encoding.md R65), total on every command word and rejecting by the cause the word faults
with, and the encoder (R62, R63, R70). -/

namespace Sys2Proof

/-- `OP = cmd[15:12]` (R61). -/
def opField (cmd : CmdWord) : BitVec 4 := cmd.extractLsb' 12 4

/-- `V = cmd[1:0]` (R64). -/
def variantField (cmd : CmdWord) : BitVec 2 := cmd.extractLsb' 0 2

/-- `B = cmd[7:0]` (R64). -/
def byteField (cmd : CmdWord) : Byte := cmd.extractLsb' 0 8

/-- `W = cmd[0]` (R64). -/
def widthField (cmd : CmdWord) : BitVec 1 := cmd.extractLsb' 0 1

/-- The reserved bits of sub-layout FV, `cmd[11:2]` (R62). -/
def reservedFV (cmd : CmdWord) : BitVec 10 := cmd.extractLsb' 2 10

/-- The reserved bits of sub-layout FB, `cmd[11:8]` (R62). -/
def reservedFB (cmd : CmdWord) : BitVec 4 := cmd.extractLsb' 8 4

/-- The reserved bits of sub-layout FW, `cmd[11:1]` (R62). -/
def reservedFW (cmd : CmdWord) : BitVec 11 := cmd.extractLsb' 1 11

/-- The operand of an FV word, or the cause it faults with: reserved bits come before the reserved variant (R65, R174). -/
def decodeFV (cmd : CmdWord) : Except FaultCause Instr :=
  if reservedFV cmd ≠ 0#10 then .error .reservedBits
  else if variantField cmd = 3#2 then .error .reservedVariant
  else .ok (.init (variantField cmd))

/-- The operand of an FB word, or the cause it faults with (R65). -/
def decodeFB (cmd : CmdWord) : Except FaultCause Instr :=
  if reservedFB cmd ≠ 0#4 then .error .reservedBits else .ok (.absorb (byteField cmd))

/-- An FW word: `W` chooses between the command of width 32 and the one of width 64 (R64, R65). -/
def decodeFW (cmd : CmdWord) (at32 at64 : Instr) : Except FaultCause Instr :=
  if reservedFW cmd ≠ 0#11 then .error .reservedBits
  else if widthField cmd = 0#1 then .ok at32 else .ok at64

/-- `decode` (R65): reads no state and gives every word a command or the cause of the fault it raises. It never answers
NOT_INITIALISED, which is a check of the state. -/
def decode (cmd : CmdWord) : Except FaultCause Instr :=
  if opField cmd = 0x1#4 then decodeFV cmd
  else if opField cmd = 0x2#4 then decodeFB cmd
  else if opField cmd = 0x3#4 then decodeFW cmd .digest32 .digest64
  else if opField cmd = 0x4#4 then decodeFW cmd .rdacc32 .rdacc64
  else .error .illegalOpcode

/-- The FV word `oooo 0000 0000 00vv` (R62). -/
def wordFV (op : BitVec 4) (v : BitVec 2) : CmdWord := op ++ 0#10 ++ v

/-- The FB word `oooo 0000 bbbb bbbb` (R62). -/
def wordFB (op : BitVec 4) (b : Byte) : CmdWord := op ++ 0#4 ++ b

/-- The FW word `oooo 0000 0000 000w` (R62). -/
def wordFW (op : BitVec 4) (w : BitVec 1) : CmdWord := op ++ 0#11 ++ w

/-- The command word of a command (R63, R70). -/
def encode : Instr → CmdWord
  | .init v => wordFV 0x1#4 v
  | .absorb b => wordFB 0x2#4 b
  | .digest32 => wordFW 0x3#4 0#1
  | .digest64 => wordFW 0x3#4 1#1
  | .rdacc32 => wordFW 0x4#4 0#1
  | .rdacc64 => wordFW 0x4#4 1#1

/-- What the decoder reads from an opcode-table word: a command is one 16-bit word, taken whole from the port, so the
table's bit numbers are the word's own and no byte order enters (R60; 20_memory.md R46). -/
def decodeTableWord (nbits w : Nat) : Option Instr :=
  if nbits ≤ 16 ∧ w < 2 ^ nbits then
    match decode (BitVec.ofNat 16 w) with
    | .ok i => some i
    | .error _ => none
  else none

end Sys2Proof
end

