-- ==== Sys2Proof/Machine/State.lean ====
section
/-! DEFINITION. The state of one FNVU instance (10_state.md R20), the model's two own fields beside it, and the reasons an
operation of the model can stop. -/

namespace Sys2Proof.Machine

/-- The eight registers, by the numbers of R20 (`RegId.number`, Machine/HostView.lean). -/
inductive RegId where
  | status
  | fcmd
  | res
  | dout
  | dlen
  | acc32
  | acc64Lo
  | acc64Hi
  deriving DecidableEq, Repr

/-- What the outside world delivers to the block: a command word on the command port (00_scope.md R15, R18), a reset
between commands, or a reset asserted while a command was being performed, which then has no effect
(70_reset_and_hazards.md R190). -/
inductive HostEvent where
  | command (cmd : CmdWord)
  | reset
  | resetDuring (cmd : CmdWord)
  deriving DecidableEq, Repr

/-- The state: the registers of R20 and the model's own `resWritten` and `port`. -/
structure State where
  /-- `STATUS`, register 0 (R22); its fields are read and written in Machine/Flags.lean. -/
  status : BitVec 32
  /-- `FCMD`, register 1 (R24). -/
  fcmd : CmdWord
  /-- `RES`, register 2 (R28). -/
  res : Word64
  /-- `DOUT`, register 3, `DOUT[0]` first (R29). -/
  dout : Vector Byte 16
  /-- `DLEN`, register 4 (R29). -/
  dlen : BitVec 5
  /-- `ACC32`, register 5 (R30). -/
  acc32 : Word32
  /-- `ACC64_LO`, register 6 (R31). -/
  acc64Lo : Word32
  /-- `ACC64_HI`, register 7 (R31). -/
  acc64Hi : Word32
  /-- MODEL FIELD (log entry 2): RES has been written since the last reset, so that it holds a value (R36). -/
  resWritten : Bool
  /-- MODEL FIELD (log entry 3): what the outside world has still to deliver, oldest first (R15, R18). -/
  port : List HostEvent
  deriving DecidableEq, Repr

/-- Reset (70_reset_and_hazards.md R190): STATUS, FCMD and DLEN are zero. DESIGN CHOICE, unsafe (log entry 1): the
registers the spec leaves unspecified (RES, DOUT, ACC32, ACC64_LO, ACC64_HI) are zero. Nothing is pending on the port. -/
def State.reset : State where
  status := 0x00000000#32
  fcmd := 0x0000#16
  res := 0#64
  dout := Vector.replicate 16 0x00#8
  dlen := 0#5
  acc32 := 0#32
  acc64Lo := 0#32
  acc64Hi := 0#32
  resWritten := false
  port := []

/-- A run that did not end well. No step of the block raises it: a faulting command is a next state (60_exceptions.md
R172). -/
inductive Fault where
  /-- Raised by `endOfRun` and by the final check of a dispatch macro when STATUS.FAULT is 1 (00_scope.md R19,
  44_dispatch.md R153), with STATUS.CAUSE and FCMD. Safe: the host has no result. -/
  | commandFaulted (cause : BitVec 3) (cmd : CmdWord)
  deriving DecidableEq, Repr

/-- What the model gives no value to. No step of the block raises one. -/
inductive Refusal where
  /-- An instruction without a meaning; raised by no arm of `exec`. Safe. -/
  | notModelled (mnemonic : String)
  /-- Raised by `hostRead` for an accumulator, which the host cannot read (R20, R30). Safe. -/
  | noHostAccess (r : RegId)
  /-- Raised by a dispatch macro whose buffer is not readable host memory at this address (20_memory.md R41; U17). Safe. -/
  | bufferUnreadable (addr : Nat)
  /-- Raised by a dispatch macro whose length is beyond the host's MAX_LEN (U18). Safe. -/
  | lengthBeyondMaxLen (len : Nat)
  /-- Raised by `System.stepUnit` for an instance the system does not have (N_UNITS, 60_exceptions.md R181). Safe. -/
  | noSuchInstance (k : Nat)
  deriving DecidableEq, Repr

/-- An outcome of one command or one step. -/
abbrev Result := Host.Outcome State Fault Refusal

end Sys2Proof.Machine
end

