-- ==== Sys2Proof/Machine/Flags.lean ====
section
/-! DEFINITION. `STATUS` (10_state.md R22): reading and writing its fields. The block's only flags are INIT and FAULT
(R23); no arithmetic writes one (40_width32_core.md R86, 41_width64_core.md R98). -/

namespace Sys2Proof.Machine

/-- `STATUS[0]`, INIT (R22). -/
def statusInit (st : BitVec 32) : Bool := st.getLsbD 0

/-- `STATUS[1]`, FAULT (R22). -/
def statusFault (st : BitVec 32) : Bool := st.getLsbD 1

/-- `STATUS[4:2]`, CAUSE (R22). -/
def statusCause (st : BitVec 32) : BitVec 3 := st.extractLsb' 2 3

/-- `STATUS[6:5]`, VAR (R22). -/
def statusVar (st : BitVec 32) : BitVec 2 := st.extractLsb' 5 2

/-- `STATUS[31:7]`, reserved (R22). -/
def statusReserved (st : BitVec 32) : BitVec 25 := st.extractLsb' 7 25

/-- `STATUS.INIT <- 1`, every other bit kept. -/
def setInit (st : BitVec 32) : BitVec 32 := st ||| 0x1#32

/-- `STATUS.FAULT <- 1`, every other bit kept. -/
def setFault (st : BitVec 32) : BitVec 32 := st ||| 0x2#32

/-- `STATUS.CAUSE <- c`, every other bit kept. -/
def setCause (st : BitVec 32) (c : BitVec 3) : BitVec 32 :=
  (st &&& 0xFFFFFFE3#32) ||| (c.setWidth 32 <<< 2)

/-- `STATUS.VAR <- v`, every other bit kept. -/
def setVar (st : BitVec 32) (v : BitVec 2) : BitVec 32 :=
  (st &&& 0xFFFFFF9F#32) ||| (v.setWidth 32 <<< 5)

/-- `STATUS.INIT` of a state. -/
def State.initFlag (s : State) : Bool := statusInit s.status

/-- `STATUS.FAULT` of a state. -/
def State.faultFlag (s : State) : Bool := statusFault s.status

/-- `STATUS.CAUSE` of a state. -/
def State.cause (s : State) : BitVec 3 := statusCause s.status

/-- `STATUS.VAR` of a state. -/
def State.var (s : State) : BitVec 2 := statusVar s.status

/-- The code of a cause in `STATUS.CAUSE` (60_exceptions.md R171). -/
def causeCode : FaultCause → BitVec 3
  | .illegalOpcode => 1#3
  | .reservedBits => 2#3
  | .reservedVariant => 3#3
  | .notInitialised => 4#3

end Sys2Proof.Machine
end

