-- ==== Sys2Proof/Machine/Operands.lean ====
section
/-! DEFINITION. Operand forms (30_encoding.md R64): the variant code, the byte zero-extended to each core's width, and the
halves of a 64-bit value (00_scope.md R10). -/

namespace Sys2Proof.Machine

/-- The variant a code `V` names; 3 names none (R64, R67). -/
def variantOfCode (v : BitVec 2) : Option Variant :=
  if v = 0#2 then some .orig
  else if v = 1#2 then some .rev
  else if v = 2#2 then some .revx
  else none

/-- The code of a variant (R64, R110). -/
def variantCode : Variant → BitVec 2
  | .orig => 0#2
  | .rev => 1#2
  | .revx => 2#2

/-- `zext_32(B)` (R64). -/
def zextByte32 (b : Byte) : Word32 := b.setWidth 32

/-- `zext_64(B)` (R64). -/
def zextByte64 (b : Byte) : Word64 := b.setWidth 64

/-- `zext_64` of a 32-bit word (43_hex_encoder.md R136). -/
def zextWord64 (w : Word32) : Word64 := w.setWidth 64

/-- `{HI, LO}` of two 32-bit words, `HI * 2^32 + LO` (00_scope.md R10). -/
def joinWords (hi lo : Word32) : Word64 := hi ++ lo

/-- `{hi, lo}` of two 16-bit limbs (41_width64_core.md R94). -/
def joinLimbs (hi lo : BitVec 16) : Word32 := hi ++ lo

/-- `v[63:32]` (R10). -/
def highWord (v : Word64) : Word32 := v.extractLsb' 32 32

/-- `v[31:0]` (R10). -/
def lowWord (v : Word64) : Word32 := v.extractLsb' 0 32

end Sys2Proof.Machine
end

