-- ==== Sys2Proof/Machine/Ops.lean ====
section
/-! DEFINITION. The named operations over the registers that the commands share: the fault action, the checks before a
command is performed, the writes of the output registers, and reset. -/

namespace Sys2Proof.Machine

/-- The value the two words of the 64-bit accumulator hold, `{ACC64_HI, ACC64_LO}` (10_state.md R31). -/
def State.acc64 (s : State) : Word64 := joinWords s.acc64Hi s.acc64Lo

/-- The fault action `raise Fault(c)` for the command word `cmd` (60_exceptions.md R172): FAULT, CAUSE and FCMD are
written and nothing else. There is no handler to go to, and nothing returns from it but reset (R175). -/
def raiseFault (c : FaultCause) (cmd : CmdWord) (s : State) : State :=
  { s with status := setCause (setFault s.status) (causeCode c), fcmd := cmd }

/-- While STATUS.FAULT = 1 a command is ignored and changes no state; otherwise it acts (R173). Either way it completes
(70_reset_and_hazards.md R196). -/
def unlessFaulted (act : State → State) (s : State) : Result :=
  if s.faultFlag then .next s else .next (act s)

/-- `if STATUS.INIT == 0: raise Fault(NOT_INITIALISED)`, for the commands that read an accumulator (R171). FCMD receives
the command's word, which is the word the host issued (log entry 7). -/
def requireInit (i : Instr) (act : State → State) (s : State) : State :=
  if s.initFlag then act s else raiseFault .notInitialised (encode i) s

/-- Write the three accumulators (R113, R115). -/
def writeAccumulators (acc32 : Word32) (hi lo : Word32) (s : State) : State :=
  { s with acc32 := acc32, acc64Hi := hi, acc64Lo := lo }

/-- `STATUS.VAR <- V; STATUS.INIT <- 1` (42_variant_policy.md R113). -/
def selectVariant (v : BitVec 2) (s : State) : State :=
  { s with status := setInit (setVar s.status v) }

/-- Write RES (43_hex_encoder.md R136, R137); it holds a value from then on (10_state.md R36). -/
def writeRes (v : Word64) (s : State) : State :=
  { s with res := v, resWritten := true }

/-- Write the codes of a digest's characters into DOUT from DOUT[0] on, 0x00 into the bytes after them, and DLEN
(R134, R135). -/
def writeDigest (codes : List Byte) (len : BitVec 5) (s : State) : State :=
  { s with dout := Vector.ofFn (fun i => codes[i.val]?.getD 0x00#8), dlen := len }

/-- Reset (70_reset_and_hazards.md R190): every register takes its reset value. What the outside world has still to
deliver is not the block's to clear (log entry 4). -/
def takeReset (s : State) : State := { State.reset with port := s.port }

end Sys2Proof.Machine
end

