-- ==== Sys2Proof/Machine/HexEncoder.lean ====
section
/-! DEFINITION. The Hex Encoder, DIGEST32, DIGEST64, RDACC32 and RDACC64 (43_hex_encoder.md). -/

namespace Sys2Proof.Machine

/-- `hexchar(n)` (00_scope.md R14). -/
def hexchar (n : BitVec 4) : Char :=
  if n.toNat ≤ 9 then Char.ofNat ('0'.toNat + n.toNat) else Char.ofNat ('a'.toNat + (n.toNat - 10))

/-- `code(c)`, the byte of a digit character: its ASCII code (R14; 93_implementation_defined.md K1). -/
def charCode (c : Char) : Byte := BitVec.ofNat 8 c.toNat

/-- `hex8(w)` (R130): character `i` is the digit of bits `31 - 4i` to `28 - 4i`. -/
def hex8 (w : Word32) : List Char :=
  (List.range 8).map fun i => hexchar (w.extractLsb' (28 - 4 * i) 4)

/-- `hex16(HI, LO) = hex8(HI) ++ hex8(LO)` (R131). -/
def hex16 (hi lo : Word32) : List Char := hex8 hi ++ hex8 lo

/-- DIGEST32 (R134). -/
def execDigest32 (s : State) : Result :=
  unlessFaulted (requireInit .digest32 fun s => writeDigest ((hex8 s.acc32).map charCode) 8#5 s) s

/-- DIGEST64 (R135). -/
def execDigest64 (s : State) : Result :=
  unlessFaulted (requireInit .digest64 fun s => writeDigest ((hex16 s.acc64Hi s.acc64Lo).map charCode) 16#5 s) s

/-- RDACC32 (R136). -/
def execRdacc32 (s : State) : Result :=
  unlessFaulted (requireInit .rdacc32 fun s => writeRes (zextWord64 s.acc32) s) s

/-- RDACC64 (R137). -/
def execRdacc64 (s : State) : Result :=
  unlessFaulted (requireInit .rdacc64 fun s => writeRes s.acc64 s) s

end Sys2Proof.Machine
end

