-- ==== Sys2Proof/Machine/Width32.lean ====
section
/-! DEFINITION. The Width-32 Core's pure functions (40_width32_core.md). -/

namespace Sys2Proof.Machine

/-- `PRIME32` (R80). -/
def prime32 : Nat := 0x01000193

/-- `mul32(a) = (a * PRIME32) mod 2^32` (R81); the overflow leaves no trace (R86). -/
def mul32 (a : Word32) : Word32 := BitVec.ofNat 32 (a.toNat * prime32)

/-- `xor32(a, b) = a XOR zext_32(b)` (R83). -/
def xor32 (a : Word32) (b : Byte) : Word32 := a ^^^ zextByte32 b

/-- `step32(ord, a, b)` (R84). -/
def step32 : StepOrder → Word32 → Byte → Word32
  | .mtx, a, b => xor32 (mul32 a) b
  | .xtm, a, b => mul32 (xor32 a b)

/-- `fold32(ord, seed, s)` (R85): the bytes in sequence order. -/
def fold32 (ord : StepOrder) (seed : Word32) (bytes : List Byte) : Word32 :=
  bytes.foldl (step32 ord) seed

end Sys2Proof.Machine
end

