-- ==== Sys2Proof/Config.lean ====
section
/-! DEFINITION. What an implementation or a platform fixes (00_scope.md R8): the realisation of the 64-bit multiply, and
the host's length limit. `N_UNITS` is the length of `Machine.System.units`; `FNV_MMIO_MAP` needs no value at the level of
commands and named registers (20_memory.md R48). The block has no free value: no command leaves a result open. -/

namespace Sys2Proof

/-- `MUL64_IMPL` (R8), with the two dual-word realisations the spec writes out (41_width64_core.md R93, R94).
Unobservable: all give the value of R91 (R9). -/
inductive Mul64Impl where
  | native      -- a 64-bit multiplier, R91
  | dualWord    -- 32-bit words, R93
  | limbs16     -- 16-bit limbs, R94
  deriving DecidableEq, Repr

/-- What a host that runs the dispatch macros fixes. `maxLen` is `MAX_LEN` (R8, 92_eei_decisions.md D24), OPEN: an
argument of the macros, `none` for "unbounded in the model". -/
structure HostParams where
  maxLen : Option Nat
  deriving DecidableEq, Repr

/-- The host R8 describes for a model: no bound on a buffer's length. -/
def HostParams.unbounded : HostParams := ⟨none⟩

end Sys2Proof
end

