-- ==== Sys2Proof/Machine/Width64.lean ====
section
/-! DEFINITION. The Width-64 Core's pure functions (41_width64_core.md): by value, on two 32-bit words, and in 16-bit limbs. -/

namespace Sys2Proof.Machine

/-- `PRIME64` (R90), 41 bits wide (90_conflicts.md C2). -/
def prime64 : Nat := 0x100000001B3

/-- The low word of `PRIME64`, `PRIME64_LO` (R90). -/
def prime64Lo : Nat := 0x1B3

/-- `mul64(a) = (a * PRIME64) mod 2^64` (R91), the normative value. -/
def mul64 (a : Word64) : Word64 := BitVec.ofNat 64 (a.toNat * prime64)

/-- `mul64dw(HI, LO)` (R93), the 32-bit-word datapath. -/
def mul64dw (hi lo : Word32) : Word32 × Word32 :=
  let p := lo.toNat * prime64Lo
  (BitVec.ofNat 32 (hi.toNat * prime64Lo + (lo.toNat <<< 8) % 2 ^ 32 + (p >>> 32)), BitVec.ofNat 32 p)

/-- `mul64dw` in 16-bit limbs (R94). -/
def mul64limbs (hi lo : Word32) : Word32 × Word32 :=
  let v0 := lo.toNat % 2 ^ 16
  let v1 := lo.toNat >>> 16
  let v2 := hi.toNat % 2 ^ 16
  let v3 := hi.toNat >>> 16
  let t0 := v0 * prime64Lo
  let t1 := v1 * prime64Lo + (t0 >>> 16)
  let t2 := v2 * prime64Lo + (v0 <<< 8) + (t1 >>> 16)
  let t3 := v3 * prime64Lo + (v1 <<< 8) + (t2 >>> 16)
  (joinLimbs (BitVec.ofNat 16 t3) (BitVec.ofNat 16 t2), joinLimbs (BitVec.ofNat 16 t1) (BitVec.ofNat 16 t0))

/-- The multiply of a built block, whichever `MUL64_IMPL` it has (00_scope.md R8, R9), on the dual word. -/
def mul64By : Mul64Impl → Word32 → Word32 → Word32 × Word32
  | .native, hi, lo => (highWord (mul64 (joinWords hi lo)), lowWord (mul64 (joinWords hi lo)))
  | .dualWord, hi, lo => mul64dw hi lo
  | .limbs16, hi, lo => mul64limbs hi lo

/-- `xor64(a, b)` (R95). -/
def xor64 (a : Word64) (b : Byte) : Word64 := a ^^^ zextByte64 b

/-- `xor64dw(HI, LO, b)` (R95): the high word is not touched. -/
def xor64dw (hi lo : Word32) (b : Byte) : Word32 × Word32 := (hi, lo ^^^ zextByte32 b)

/-- `step64(ord, a, b)` by value (R96). -/
def step64 : StepOrder → Word64 → Byte → Word64
  | .mtx, a, b => xor64 (mul64 a) b
  | .xtm, a, b => mul64 (xor64 a b)

/-- `step64dw(ord, HI, LO, b)` (R96, 42_variant_policy.md R115): `step64` on the dual word. -/
def step64dw : StepOrder → Word32 → Word32 → Byte → Word32 × Word32
  | .mtx, hi, lo, b => xor64dw (mul64dw hi lo).1 (mul64dw hi lo).2 b
  | .xtm, hi, lo, b => mul64dw (xor64dw hi lo b).1 (xor64dw hi lo b).2

/-- `fold64(ord, seed, s)` (R97): the bytes in sequence order. -/
def fold64 (ord : StepOrder) (seed : Word64) (bytes : List Byte) : Word64 :=
  bytes.foldl (step64 ord) seed

end Sys2Proof.Machine
end

