-- ==== Sys2Proof/Machine/VariantPolicy.lean ====
section
/-! DEFINITION. The Variant Policy multiplexer, INIT and ABSORB (42_variant_policy.md). -/

namespace Sys2Proof.Machine

/-- `seed32(V)` (R110). -/
def seed32 : Variant → Word32
  | .orig => 0x00000000#32
  | .rev => 0x811C9DC5#32
  | .revx => 0x811C9DC5#32

/-- `seed64(V)` (R110). -/
def seed64 : Variant → Word64
  | .orig => 0x0000000000000000#64
  | .rev => 0xCBF29CE484222325#64
  | .revx => 0xCBF29CE484222325#64

/-- `ordering(VAR) = (VAR == 2) ? XTM : MTX` (R112). VAR never holds 3 (10_state.md R22; log entry 9). -/
def ordering (var : BitVec 2) : StepOrder := if var = 2#2 then .xtm else .mtx

/-- INIT's effect for a variant: seed all three accumulators, select the variant, mark the block initialised (R113). -/
def startCall (v : Variant) (s : State) : State :=
  selectVariant (variantCode v)
    (writeAccumulators (seed32 v) (highWord (seed64 v)) (lowWord (seed64 v)) s)

/-- ABSORB's effect: one step of each core, both from the accumulators' values before the command (R115). -/
def absorbByte (b : Byte) (s : State) : State :=
  writeAccumulators (step32 (ordering s.var) s.acc32 b)
    (step64dw (ordering s.var) s.acc64Hi s.acc64Lo b).1
    (step64dw (ordering s.var) s.acc64Hi s.acc64Lo b).2 s

/-- INIT V (R113). The reserved code V = 3 faults with RESERVED_VARIANT (R67). -/
def execInit (v : BitVec 2) (s : State) : Result :=
  unlessFaulted (fun s =>
    match variantOfCode v with
    | some var => startCall var s
    | none => raiseFault .reservedVariant (encode (.init v)) s) s

/-- ABSORB B (R115). -/
def execAbsorb (b : Byte) (s : State) : Result :=
  unlessFaulted (requireInit (.absorb b) (absorbByte b)) s

end Sys2Proof.Machine
end

