-- ==== Sys2Proof/Machine/Dispatch.lean ====
section
/-! DEFINITION. One arm per command. -/

namespace Sys2Proof.Machine

def exec (i : Instr) (s : State) : Host.Outcome State Fault Refusal :=
  match i with
  | .init v => Sys2Proof.Machine.execInit v s
  | .absorb b => Sys2Proof.Machine.execAbsorb b s
  | .digest32 => Sys2Proof.Machine.execDigest32 s
  | .digest64 => Sys2Proof.Machine.execDigest64 s
  | .rdacc32 => Sys2Proof.Machine.execRdacc32 s
  | .rdacc64 => Sys2Proof.Machine.execRdacc64 s

end Sys2Proof.Machine
end

