-- ==== Sys2Proof/Machine/Command.lean ====
section
/-! DEFINITION. One command word at the command port, and the other things that can arrive there: the order of the checks
of 60_exceptions.md R174. -/

namespace Sys2Proof.Machine

/-- A command word at an instance (R174): ignored and not decoded while STATUS.FAULT = 1 (R173), faulting with the
decoder's cause where it is no command (30_encoding.md R65), and otherwise the command it decodes to. -/
def performWord (cmd : CmdWord) (s : State) : Result :=
  if s.faultFlag then .next s
  else
    match decode cmd with
    | .error c => .next (raiseFault c cmd s)
    | .ok i => exec i s

/-- What arrives: a command, or a reset; a command during which reset is asserted has no effect
(70_reset_and_hazards.md R190). -/
def takeEvent : HostEvent → State → Result
  | .command cmd, s => performWord cmd s
  | .reset, s => .next (takeReset s)
  | .resetDuring _, s => .next (takeReset s)

/-- Nothing has arrived: between commands the block is idle and holds its state (60_exceptions.md R183; 00_scope.md R18). -/
def idle (s : State) : Result := .next s

end Sys2Proof.Machine
end

