-- ==== Sys2Proof/Machine/Step.lean ====
section
/-! DEFINITION. One step of the machine: the oldest thing the outside world has to deliver arrives and is dealt with
completely (00_scope.md R18; 20_memory.md R42). -/

namespace Sys2Proof.Machine

/-- One step: idle where nothing is pending; otherwise the oldest entry leaves the port and takes effect. -/
def step (s : State) : Host.Outcome State Fault Refusal :=
  match s.port with
  | [] => idle s
  | e :: rest => takeEvent e { s with port := rest }

/-- `s` with the command word `w` next on the port, its bits above `nbits` zero (log entry 3). -/
def State.withFetchWord (s : State) (nbits w : Nat) : State :=
  { s with port := .command (BitVec.ofNat 16 (w % 2 ^ nbits)) :: s.port }

end Sys2Proof.Machine
end

