-- ==== Sys2Proof/Machine/HostView.lean ====
section
/-! DEFINITION. The registers as the host sees them between commands (10_state.md R20, R36; 00_scope.md R19): a read has no
side effect (20_memory.md R47), so it is a function of the state and no step. -/

namespace Sys2Proof.Machine

/-- The register numbers of R20; they identify the registers and are no addresses. -/
def RegId.number : RegId → Nat
  | .status => 0
  | .fcmd => 1
  | .res => 2
  | .dout => 3
  | .dlen => 4
  | .acc32 => 5
  | .acc64Lo => 6
  | .acc64Hi => 7

/-- The register widths of R20, in bits. -/
def RegId.width : RegId → Nat
  | .status => 32
  | .fcmd => 16
  | .res => 64
  | .dout => 128
  | .dlen => 5
  | .acc32 => 32
  | .acc64Lo => 32
  | .acc64Hi => 32

/-- Whether the host has read access (R20): to the output registers, not to the accumulators. -/
def RegId.hostReadable : RegId → Bool
  | .status => true
  | .fcmd => true
  | .res => true
  | .dout => true
  | .dlen => true
  | .acc32 => false
  | .acc64Lo => false
  | .acc64Hi => false

/-- What a host read of an output register returns. -/
inductive HostValue where
  | status (v : BitVec 32)
  | fcmd (v : CmdWord)
  | res (v : Word64)
  | dout (v : Vector Byte 16)
  | dlen (v : BitVec 5)
  /-- The read of a register that holds no value completes and gives no number (R36; log entry 2). -/
  | noValue (r : RegId)
  deriving DecidableEq, Repr

/-- Whether a register holds a value (R36). STATUS, FCMD and DLEN always do. RES does once RDACC has written it. DOUT does
once a DIGEST has written it, which DLEN ≠ 0 tells (R29; log entry 2). The accumulators do once INIT has written them. -/
def State.holdsValue (s : State) : RegId → Bool
  | .status => true
  | .fcmd => true
  | .res => s.resWritten
  | .dout => s.dlen != 0#5
  | .dlen => true
  | .acc32 => s.initFlag
  | .acc64Lo => s.initFlag
  | .acc64Hi => s.initFlag

/-- A host read of a register between commands (20_memory.md R50): the value the last command that wrote it left, or no
value where none has and the reset value is unspecified (R36). Every register the host has access to can be read in every
state. -/
def hostRead (r : RegId) (s : State) : Host.Outcome HostValue Fault Refusal :=
  match r with
  | .status => .next (.status s.status)
  | .fcmd => .next (.fcmd s.fcmd)
  | .res => .next (if s.holdsValue .res then .res s.res else .noValue .res)
  | .dout => .next (if s.holdsValue .dout then .dout s.dout else .noValue .dout)
  | .dlen => .next (.dlen s.dlen)
  | .acc32 => .refused (.noHostAccess .acc32)
  | .acc64Lo => .refused (.noHostAccess .acc64Lo)
  | .acc64Hi => .refused (.noHostAccess .acc64Hi)

/-- `DOUT[0 .. DLEN-1]`, the digest a dispatch macro returns (44_dispatch.md R151). -/
def State.digest (s : State) : List Byte := s.dout.toList.take s.dlen.toNat

/-- The end of a run, after its last command (00_scope.md R19): with STATUS.FAULT = 1 the run has faulted and is no good
end (60_exceptions.md R173). -/
def endOfRun (s : State) : Result :=
  if s.faultFlag then .fault (.commandFaulted s.cause s.fcmd) else .next s

end Sys2Proof.Machine
end

