-- ==== Sys2Proof/Machine/HostMacros.lean ====
section
/-! DEFINITION. What the host runs with the block's commands (00_scope.md R5): a list of commands, the pseudo-instruction
ABSORBS, and the six dispatch macros HASH_<V>_<W> over a buffer in host memory (30_encoding.md R71, R72; 44_dispatch.md).
None of this is state of the block. -/

namespace Sys2Proof.Machine

/-- Readable host memory: (address, byte) pairs. An address not listed is not readable (20_memory.md R41; log entry 12). -/
abbrev HostMemory := List Host.Cell

/-- The canonical form: addresses strictly rising. -/
def HostMemory.wf : HostMemory → Bool
  | [] => true
  | [_] => true
  | a :: b :: rest => decide (a.1 < b.1) && HostMemory.wf (b :: rest)

/-- `MemRead(addr, 1)` (00_scope.md R13), where the address is readable. -/
def memRead (m : HostMemory) (addr : Nat) : Option Byte :=
  match m with
  | [] => none
  | (a, b) :: rest => if a = addr then some b else memRead rest addr

/-- Host memory that holds a byte sequence at `base` and nothing else. -/
def HostMemory.ofBytes (base : Nat) : List Byte → HostMemory
  | [] => []
  | b :: rest => (base, b) :: HostMemory.ofBytes (base + 1) rest

/-- The buffer `buf[0 .. len-1]`, byte 0 first (20_memory.md R40, R43), read as one value; the first unreadable address
where there is one (R41). -/
def readBuffer (m : HostMemory) (buf : Nat) : Nat → Except Nat (List Byte)
  | 0 => .ok []
  | len + 1 =>
    match memRead m buf with
    | none => .error buf
    | some b =>
      match readBuffer m (buf + 1) len with
      | .ok rest => .ok (b :: rest)
      | .error a => .error a

/-- Commands issued in order by one host, each performed completely before the next (00_scope.md R15, R18). -/
def issueAll : List CmdWord → State → Result
  | [], s => .next s
  | w :: rest, s =>
    match performWord w s with
    | .next t => issueAll rest t
    | .fault f => .fault f
    | .refused r => .refused r

/-- ABSORBS (R71): one ABSORB per byte, in order. -/
def absorbWords (bytes : List Byte) : List CmdWord := bytes.map fun b => encode (.absorb b)

/-- The DIGEST command of a width (44_dispatch.md R151). -/
def digestInstr : Width → Instr
  | .w32 => .digest32
  | .w64 => .digest64

/-- The RDACC command of a width (43_hex_encoder.md R136, R137). -/
def rdaccInstr : Width → Instr
  | .w32 => .rdacc32
  | .w64 => .rdacc64

/-- The commands HASH_<V>_<W> issues (R151). -/
def hashWords (v : Variant) (w : Width) (bytes : List Byte) : List CmdWord :=
  encode (.init (variantCode v)) :: absorbWords bytes ++ [encode (digestInstr w)]

/-- What a dispatch macro gives the host: the digest, and the state it leaves. -/
structure HashResult where
  digest : List Byte
  final : State
  deriving DecidableEq, Repr

/-- The macro's last two lines (R151): check STATUS.FAULT = 0, then return DOUT[0 .. DLEN-1]. With FAULT = 1 it has no
result (R153). -/
def hashResult (s : State) : Host.Outcome HashResult Fault Refusal :=
  if s.faultFlag then .fault (.commandFaulted s.cause s.fcmd) else .next ⟨s.digest, s⟩

/-- HASH_<V>_<W> over a byte sequence (R151, R152). -/
def hashBytes (v : Variant) (w : Width) (bytes : List Byte) (s : State) : Host.Outcome HashResult Fault Refusal :=
  match issueAll (hashWords v w bytes) s with
  | .next t => hashResult t
  | .fault f => .fault f
  | .refused r => .refused r

/-- HASH_<V>_<W> buf, len (R151): no result where the length is beyond the host's MAX_LEN (U18) or the buffer is not
readable (U17). -/
def hashMacro (p : HostParams) (v : Variant) (w : Width) (m : HostMemory) (buf len : Nat) (s : State) :
    Host.Outcome HashResult Fault Refusal :=
  if p.maxLen.any (fun n => decide (n < len)) then .refused (.lengthBeyondMaxLen len)
  else
    match readBuffer m buf len with
    | .error a => .refused (.bufferUnreadable a)
    | .ok bytes => hashBytes v w bytes s

end Sys2Proof.Machine
end

