-- ==== Sys2Proof/Machine/Assembler.lean ====
section
/-! DEFINITION. The assembly form of the commands and pseudo-instructions (30_encoding.md R70, R71, R72), on lists of
characters. An operand outside the rule is an assembly error, `none`. What the rules leave open is log entry 13. -/

namespace Sys2Proof.Machine

/-- A blank between a mnemonic and its operand. -/
def isBlank (c : Char) : Bool := c == ' ' || c == '\t'

/-- A line without the blanks at its two ends. -/
def trimBlanks (cs : List Char) : List Char :=
  ((cs.dropWhile isBlank).reverse.dropWhile isBlank).reverse

/-- The value of a decimal digit. -/
def decDigit (c : Char) : Option Nat :=
  if '0'.toNat ≤ c.toNat ∧ c.toNat ≤ '9'.toNat then some (c.toNat - '0'.toNat) else none

/-- The value of a hexadecimal digit, of either case. -/
def hexDigit (c : Char) : Option Nat :=
  if '0'.toNat ≤ c.toNat ∧ c.toNat ≤ '9'.toNat then some (c.toNat - '0'.toNat)
  else if 'a'.toNat ≤ c.toNat ∧ c.toNat ≤ 'f'.toNat then some (c.toNat - 'a'.toNat + 10)
  else if 'A'.toNat ≤ c.toNat ∧ c.toNat ≤ 'F'.toNat then some (c.toNat - 'A'.toNat + 10)
  else none

/-- A run of digits of a base, most significant first, after the number already read. -/
def digitsFrom (digit : Char → Option Nat) (base acc : Nat) : List Char → Option Nat
  | [] => some acc
  | c :: rest =>
    match digit c with
    | some d => digitsFrom digit base (acc * base + d) rest
    | none => none

/-- A number: decimal, or hex after `0x` (R70). -/
def parseNumber (cs : List Char) : Option Nat :=
  match cs with
  | [] => none
  | '0' :: 'x' :: [] => none
  | '0' :: 'x' :: rest => digitsFrom hexDigit 16 0 rest
  | _ => digitsFrom decDigit 10 0 cs

/-- The operand `b` of ABSORB (R70): a number from 0 to 255, or a one-character literal whose code is below 128. -/
def parseByte (cs : List Char) : Option Byte :=
  match cs with
  | ['\'', c, '\''] => if c.toNat < 128 then some (BitVec.ofNat 8 c.toNat) else none
  | _ =>
    match parseNumber cs with
    | some n => if n < 256 then some (BitVec.ofNat 8 n) else none
    | none => none

/-- The character after an escape's `\`: the byte of `\xHH` and the text after it (R71). -/
def parseEscape (cs : List Char) : Option Byte :=
  match cs with
  | 'x' :: h :: l :: _ =>
    match hexDigit h, hexDigit l with
    | some a, some b => some (BitVec.ofNat 8 (a * 16 + b))
    | _, _ => none
  | _ => none

/-- The bytes of a text after its opening quote, up to the closing quote that ends the operand (R71). `skip` characters
of an escape are still to be passed over. -/
def parseText (skip : Nat) : List Char → Option (List Byte)
  | [] => none
  | c :: rest =>
    match skip with
    | k + 1 => parseText k rest
    | 0 =>
      if c.toNat = 0x22 then (if rest.isEmpty then some [] else none)
      else
        match (if c.toNat = 0x5C then parseEscape rest else none) with
        | some b => (parseText 3 rest).map (b :: ·)
        | none => if c.toNat < 128 then (parseText 0 rest).map (BitVec.ofNat 8 c.toNat :: ·) else none

/-- Characters in front of the first part of a list. -/
def ontoFirst (cs : List Char) : List (List Char) → List (List Char)
  | [] => [cs]
  | p :: ps => (cs ++ p) :: ps

/-- The parts of a list between commas. A one-character literal belongs to its part whole, so that the comma of `','` (R70)
separates nothing. -/
def splitCommas : List Char → List (List Char)
  | [] => [[]]
  | '\'' :: c :: '\'' :: rest => ontoFirst ['\'', c, '\''] (splitCommas rest)
  | c :: rest => if c = ',' then [] :: splitCommas rest else ontoFirst [c] (splitCommas rest)

/-- A list all of whose parts could be read. -/
def allSome (xs : List (Option Byte)) : Option (List Byte) :=
  match xs with
  | [] => some []
  | none :: _ => none
  | some b :: rest => (allSome rest).map (b :: ·)

/-- The bytes of `[b0, b1, ..]` after its opening bracket (R71). -/
def parseByteList (cs : List Char) : Option (List Byte) :=
  match cs.reverse with
  | ']' :: inner =>
    let inner := trimBlanks inner.reverse
    if inner.isEmpty then some [] else allSome ((splitCommas inner).map fun p => parseByte (trimBlanks p))
  | _ => none

/-- The operand of ABSORBS (R71). -/
def parseByteSequence (cs : List Char) : Option (List Byte) :=
  match cs with
  | c :: rest => if c.toNat = 0x22 then parseText 0 rest else if c = '[' then parseByteList rest else none
  | [] => none

/-- The operand of INIT (R70). -/
def parseVariant (cs : List Char) : Option Variant :=
  if cs = "ORIG".toList then some .orig
  else if cs = "REV".toList then some .rev
  else if cs = "REVX".toList then some .revx
  else none

/-- The mnemonic of a dispatch operation (R72, R150). -/
def parseHashName (cs : List Char) : Option (Variant × Width) :=
  if cs = "HASH_ORIG_32".toList then some (.orig, .w32)
  else if cs = "HASH_REV_32".toList then some (.rev, .w32)
  else if cs = "HASH_REVX_32".toList then some (.revx, .w32)
  else if cs = "HASH_ORIG_64".toList then some (.orig, .w64)
  else if cs = "HASH_REV_64".toList then some (.rev, .w64)
  else if cs = "HASH_REVX_64".toList then some (.revx, .w64)
  else none

/-- A line of assembly: command words, or a dispatch operation on a buffer, which the host expands when it runs it (R72). -/
inductive AsmItem where
  | words (ws : List CmdWord)
  | hash (v : Variant) (w : Width) (buf len : Nat)
  deriving DecidableEq, Repr

/-- The operand `buf, len` of a dispatch operation (R72). -/
def parseHashOperand (v : Variant) (w : Width) (cs : List Char) : Option AsmItem :=
  match splitCommas cs with
  | [a, b] =>
    match parseNumber (trimBlanks a), parseNumber (trimBlanks b) with
    | some buf, some len => some (.hash v w buf len)
    | _, _ => none
  | _ => none

/-- A mnemonic and its operand (R70, R71, R72). -/
def assembleParts (mn operand : List Char) : Option AsmItem :=
  if mn = "INIT".toList then (parseVariant operand).map fun v => .words [encode (.init (variantCode v))]
  else if mn = "ABSORB".toList then (parseByte operand).map fun b => .words [encode (.absorb b)]
  else if mn = "ABSORBS".toList then (parseByteSequence operand).map fun bs => .words (absorbWords bs)
  else if mn = "DIGEST32".toList ∧ operand = [] then some (.words [encode .digest32])
  else if mn = "DIGEST64".toList ∧ operand = [] then some (.words [encode .digest64])
  else if mn = "RDACC32".toList ∧ operand = [] then some (.words [encode .rdacc32])
  else if mn = "RDACC64".toList ∧ operand = [] then some (.words [encode .rdacc64])
  else
    match parseHashName mn with
    | some (v, w) => parseHashOperand v w operand
    | none => none

/-- One line of assembly (R70): a mnemonic, then its operand if it has one. -/
def assembleLine (line : List Char) : Option AsmItem :=
  let t := trimBlanks line
  assembleParts (t.takeWhile fun c => !isBlank c) (trimBlanks (t.dropWhile fun c => !isBlank c))

/-- The commands a line stands for, with the host memory its buffer is read from (R72, R151). -/
def expandItem (m : HostMemory) : AsmItem → Option (List CmdWord)
  | .words ws => some ws
  | .hash v w buf len =>
    match readBuffer m buf len with
    | .ok bytes => some (hashWords v w bytes)
    | .error _ => none

/-- A program: one line after the other (R15, R70). -/
def assemble (m : HostMemory) : List (List Char) → Option (List CmdWord)
  | [] => some []
  | line :: rest =>
    match (assembleLine line).bind (expandItem m), assemble m rest with
    | some ws, some more => some (ws ++ more)
    | _, _ => none

/-- A hex digit for the operand of ABSORB. -/
def hexText (n : Nat) : Char :=
  if n ≤ 9 then Char.ofNat ('0'.toNat + n) else Char.ofNat ('A'.toNat + (n - 10))

/-- The assembly form of a command (00_scope.md R15, R70); the reserved variant has none. -/
def assemblyText : Instr → Option (List Char)
  | .init v =>
    match variantOfCode v with
    | some .orig => some "INIT ORIG".toList
    | some .rev => some "INIT REV".toList
    | some .revx => some "INIT REVX".toList
    | none => none
  | .absorb b => some ("ABSORB 0x".toList ++ [hexText (b.toNat / 16), hexText (b.toNat % 16)])
  | .digest32 => some "DIGEST32".toList
  | .digest64 => some "DIGEST64".toList
  | .rdacc32 => some "RDACC32".toList
  | .rdacc64 => some "RDACC64".toList

end Sys2Proof.Machine
end

