-- ==== Sys2Proof/Machine/Instances.lean ====
section
/-! DEFINITION. A system of `N_UNITS` instances (60_exceptions.md R181): each has its own copy of all the state, and a
step is one instance's (20_memory.md R52). -/

namespace Sys2Proof.Machine

/-- The instances; `N_UNITS` is the length of the list. -/
structure System where
  units : List State
  deriving DecidableEq, Repr

/-- `n` instances, each in its reset state (R181). -/
def System.reset (n : Nat) : System := ⟨List.replicate n State.reset⟩

/-- Instance `k` takes a step. -/
def System.stepUnit (k : Nat) (sys : System) : Host.Outcome System Fault Refusal :=
  match sys.units[k]? with
  | none => .refused (.noSuchInstance k)
  | some s =>
    match step s with
    | .next t => .next ⟨sys.units.set k t⟩
    | .fault f => .fault f
    | .refused r => .refused r

/-- Several instances stepped one after the other, as `order` names them. -/
def System.runOrder : List Nat → System → Host.Outcome System Fault Refusal
  | [], sys => .next sys
  | k :: rest, sys =>
    match sys.stepUnit k with
    | .next t => System.runOrder rest t
    | .fault f => .fault f
    | .refused r => .refused r

end Sys2Proof.Machine
end

