-- ==== Sys2Proof/Safety.lean ====
section
/-! DEFINITION. What a safe run is: every state of a run from reset meets `State.Inv`, and its end has STATUS.FAULT = 0
(00_scope.md R19). -/

namespace Sys2Proof.Machine

/-- A run's end is good (00_scope.md R19, 60_exceptions.md R173). -/
def State.goodEnd (s : State) : Bool := !s.faultFlag

/-- The commands that read an accumulator, and so need STATUS.INIT = 1 (60_exceptions.md R171). -/
def readsAccumulator : Instr → Bool
  | .init _ => false
  | .absorb _ => true
  | .digest32 => true
  | .digest64 => true
  | .rdacc32 => true
  | .rdacc64 => true

/-- The code of a lowercase hex digit (00_scope.md R14). -/
def isHexCode (b : Byte) : Bool :=
  (0x30 ≤ b.toNat && b.toNat ≤ 0x39) || (0x61 ≤ b.toNat && b.toNat ≤ 0x66)

/-- Why a recorded fault can stand in STATUS and FCMD (60_exceptions.md R171, R172, R173): the recorded word is no command
and the cause is the decoder's, or it is a command that reads an accumulator and the block was, and still is, not
initialised. -/
def State.faultRecordSound (s : State) : Prop :=
  (∃ c, decode s.fcmd = .error c ∧ s.cause = causeCode c) ∨
    (s.initFlag = false ∧ s.cause = 4#3 ∧ ∃ i, decode s.fcmd = .ok i ∧ readsAccumulator i = true)

/-- What holds of every state of a run. -/
structure State.Inv (s : State) : Prop where
  /-- STATUS[31:7] reads as zero (10_state.md R22). -/
  reserved_zero : statusReserved s.status = 0#25
  /-- CAUSE codes 5 to 7 never occur (R22). -/
  cause_legal : s.cause.toNat ≤ 4
  /-- VAR never holds 3 (R22). -/
  var_legal : s.var ≠ 3#2
  /-- With FAULT = 0, CAUSE is 0 and FCMD reads 0x0000 (R24, 60_exceptions.md R171). -/
  no_fault_no_record : s.faultFlag = false → s.cause = 0#3 ∧ s.fcmd = 0x0000#16
  /-- With FAULT = 1 the record tells the first faulting word and its cause (R24, 60_exceptions.md R172). -/
  fault_record : s.faultFlag = true → s.faultRecordSound
  /-- Before the first good INIT, VAR reads 0 and no output has been produced (R22, 60_exceptions.md R171). -/
  before_init : s.initFlag = false → s.var = 0#2 ∧ s.dlen = 0#5 ∧ s.resWritten = false
  /-- DLEN is 0, 8 or 16 (R20). -/
  dlen_legal : s.dlen = 0#5 ∨ s.dlen = 8#5 ∨ s.dlen = 16#5
  /-- A digest in DOUT is DLEN lowercase hex digits, then 0x00 (R29). -/
  dout_digest : s.dlen ≠ 0#5 → ∀ i : Fin 16,
    if i.val < s.dlen.toNat then isHexCode s.dout[i] = true else s.dout[i] = 0x00#8

end Sys2Proof.Machine
end

