-- ==== Sys2Proof/Certificates/Slice0/Obligations.lean ====
section
/-! DEFINITION. The statements for the provers. `SpecView` writes the spec's own formulas as plain arithmetic, apart from
the model's definitions of the same things, so that a statement compares the two. -/

namespace Sys2Proof.SpecView

open Sys2Proof.Machine

/-- The state a fault with cause `code` and command word `cmd` leaves (60_exceptions.md R172): STATUS[1] is 1, STATUS[4:2]
is the code, FCMD is the word, all else as before. -/
def recordFault (code : BitVec 32) (cmd : CmdWord) (s : State) : State :=
  { s with status := (s.status &&& 0xFFFFFFE1#32) ||| 0x2#32 ||| (code <<< 2), fcmd := cmd }

/-- One byte into the 32-bit accumulator, by the value of STATUS.VAR (R81, R83, R84, R112). -/
def hashStep32 (var : BitVec 2) (a : BitVec 32) (b : BitVec 8) : BitVec 32 :=
  if var = 2#2 then (a ^^^ b.setWidth 32) * 0x01000193#32 else (a * 0x01000193#32) ^^^ b.setWidth 32

/-- One byte into the 64-bit accumulator, on a true 64-bit value (R91, R95, R96, R112). -/
def hashStep64 (var : BitVec 2) (a : BitVec 64) (b : BitVec 8) : BitVec 64 :=
  if var = 2#2 then (a ^^^ b.setWidth 64) * 0x100000001B3#64 else (a * 0x100000001B3#64) ^^^ b.setWidth 64

/-- The seeds (42_variant_policy.md R110), by the code `V`. -/
def seedOf32 (v : BitVec 2) : BitVec 32 := if v = 0#2 then 0#32 else 0x811C9DC5#32

def seedOf64 (v : BitVec 2) : BitVec 64 := if v = 0#2 then 0#64 else 0xCBF29CE484222325#64

/-- The byte of the lowercase hex digit of `n` (00_scope.md R14). -/
def hexByte (n : Nat) : Byte := if n ≤ 9 then BitVec.ofNat 8 (0x30 + n) else BitVec.ofNat 8 (0x61 + (n - 10))

/-- The digest of a number in `len` hex digits, most significant first (43_hex_encoder.md R130). -/
def hexBytes (len n : Nat) : List Byte := (List.range len).map fun i => hexByte (n / 16 ^ (len - 1 - i) % 16)

/-- The legal INIT words (30_encoding.md R63). -/
def isInitWord (w : CmdWord) : Prop := 0x1000 ≤ w.toNat ∧ w.toNat ≤ 0x1002

/-- The other 260 legal words (R63): the commands that read an accumulator. -/
def isReaderWord (w : CmdWord) : Prop :=
  (0x2000 ≤ w.toNat ∧ w.toNat ≤ 0x20FF) ∨ w = 0x3000#16 ∨ w = 0x3001#16 ∨ w = 0x4000#16 ∨ w = 0x4001#16

/-- A word of OP 1 to 4 with a reserved bit set (R62, R66). -/
def hasReservedBit (w : CmdWord) : Prop :=
  (w.toNat / 0x1000 = 1 ∧ w &&& 0x0FFC#16 ≠ 0#16) ∨ (w.toNat / 0x1000 = 2 ∧ w &&& 0x0F00#16 ≠ 0#16) ∨
    ((w.toNat / 0x1000 = 3 ∨ w.toNat / 0x1000 = 4) ∧ w &&& 0x0FFE#16 ≠ 0#16)

/-- Characters as one-character literals with commas between them (30_encoding.md R70, R71). -/
def literalList : List Char → List Char
  | [] => []
  | [c] => ['\'', c, '\'']
  | c :: rest => ['\'', c, '\'', ','] ++ literalList rest

/-- Bytes as the escapes `\xHH` of a text (R71), in upper-case digits. -/
def escapedText : List Byte → List Char
  | [] => []
  | b :: rest => ['\\', 'x', hexText (b.toNat / 16), hexText (b.toNat % 16)] ++ escapedText rest

end Sys2Proof.SpecView

open Sys2Proof Sys2Proof.Machine Sys2Proof.SpecView

/-! ## Encoding (30_encoding.md) -/

/-- Decoding and encoding agree: every command's word decodes to it, and every word that decodes to a command is that
well-formed command's word (R62, R63, R65). -/
def Obligations.DecodeAndEncodeAgree : Prop :=
  (∀ i : Instr, i.wellFormed = true → decode (encode i) = .ok i) ∧
  (∀ (w : CmdWord) (i : Instr), decode w = .ok i → i.wellFormed = true ∧ encode i = w)

/-- R65: the decoder, with every field written as arithmetic on the word's number. -/
def Obligations.DecodeFollowsTheDecodingRule : Prop :=
  ∀ w : CmdWord,
    let n := w.toNat
    let op := n / 4096
    (op = 1 → n / 4 % 1024 ≠ 0 → decode w = .error .reservedBits) ∧
    (op = 1 → n / 4 % 1024 = 0 → n % 4 = 3 → decode w = .error .reservedVariant) ∧
    (op = 1 → n / 4 % 1024 = 0 → n % 4 ≠ 3 → decode w = .ok (.init (BitVec.ofNat 2 (n % 4)))) ∧
    (op = 2 → n / 256 % 16 ≠ 0 → decode w = .error .reservedBits) ∧
    (op = 2 → n / 256 % 16 = 0 → decode w = .ok (.absorb (BitVec.ofNat 8 (n % 256)))) ∧
    (op = 3 ∨ op = 4 → n / 2 % 2048 ≠ 0 → decode w = .error .reservedBits) ∧
    (op = 3 → n / 2 % 2048 = 0 → decode w = if n % 2 = 0 then .ok .digest32 else .ok .digest64) ∧
    (op = 4 → n / 2 % 2048 = 0 → decode w = if n % 2 = 0 then .ok .rdacc32 else .ok .rdacc64) ∧
    (op = 0 ∨ 5 ≤ op → decode w = .error .illegalOpcode)

/-- R63: the legal words are the three INIT words, the 256 ABSORB words, 0x3000, 0x3001, 0x4000 and 0x4001, each with its
command, and no others. -/
def Obligations.LegalCommandWordsAreExactly263 : Prop :=
  (∀ w : CmdWord, (∃ i, decode w = .ok i) ↔ isInitWord w ∨ isReaderWord w) ∧
  (∀ w : CmdWord, ¬ (isInitWord w ∨ isReaderWord w) → ∃ c, decode w = .error c) ∧
  (∀ v : BitVec 2, v ≠ 3#2 → decode (BitVec.ofNat 16 (0x1000 + v.toNat)) = .ok (.init v)) ∧
  (∀ b : Byte, decode (BitVec.ofNat 16 (0x2000 + b.toNat)) = .ok (.absorb b)) ∧
  decode 0x3000#16 = .ok .digest32 ∧ decode 0x3001#16 = .ok .digest64 ∧
  decode 0x4000#16 = .ok .rdacc32 ∧ decode 0x4001#16 = .ok .rdacc64

/-- Words written out from R62, R66, R67, R68 and R70. -/
def Obligations.WrittenOutWordsDecode : Prop :=
  decode 0b0001000000000001#16 = .ok (.init 1) ∧ decode 0b0010000001100001#16 = .ok (.absorb 0x61) ∧
  decode 0b0011000000000001#16 = .ok .digest64 ∧ decode 0b0100000000000000#16 = .ok .rdacc32 ∧
  decode 0x3002#16 = .error .reservedBits ∧ decode 0x1003#16 = .error .reservedVariant ∧
  decode 0x0000#16 = .error .illegalOpcode

/-- The assembly form of every command assembles to that command's word (R70). -/
def Obligations.AssemblyTextAssemblesToTheWord : Prop :=
  ∀ i : Instr, i.wellFormed = true →
    ∃ text, assemblyText i = some text ∧ assembleLine text = some (.words [encode i])

/-! ## One step and one command (00_scope.md R18, 60_exceptions.md R170 to R175) -/

/-- A step takes the oldest entry of the port; a command word that decodes, at an unfaulted block, is the decoded command
at the state without that entry. With nothing on the port the block is idle. -/
def Obligations.StepRunsTheDecodedCommand : Prop :=
  (∀ (s : State) (w : CmdWord) (rest : List HostEvent) (i : Instr), s.port = .command w :: rest →
    s.faultFlag = false → decode w = .ok i → step s = exec i { s with port := rest }) ∧
  (∀ s : State, s.port = [] → step s = .next s)

/-- Every command of `Instr` and every step answers a next state, in every state (70_reset_and_hazards.md R196). What the
two clauses say of the port, that a command leaves it and that a step takes its oldest entry and no other, a reset
included, is the model's choice and no rule's (log entries 3 and 4). -/
def Obligations.EveryCommandAndStepCompletes : Prop :=
  (∀ (i : Instr) (s : State), ∃ t, exec i s = .next t ∧ t.port = s.port) ∧
  (∀ s : State, ∃ t, step s = .next t ∧ t.port = s.port.drop 1)

/-- R172, R174: the order of the checks of one command word, with the state each outcome leaves. -/
def Obligations.CommandWordCheckOrderAndFaultAction : Prop :=
  ∀ (s : State) (w : CmdWord) (rest : List HostEvent), s.port = .command w :: rest →
    let t : State := { s with port := rest }
    (s.faultFlag = true → step s = .next t) ∧
    (s.faultFlag = false →
      (w.toNat / 0x1000 = 0 ∨ 5 ≤ w.toNat / 0x1000 → step s = .next (recordFault 1#32 w t)) ∧
      (hasReservedBit w → step s = .next (recordFault 2#32 w t)) ∧
      (w = 0x1003#16 → step s = .next (recordFault 3#32 w t)) ∧
      (isReaderWord w → s.initFlag = false → step s = .next (recordFault 4#32 w t)) ∧
      (isInitWord w ∨ (isReaderWord w ∧ s.initFlag = true) →
        ∃ i u, decode w = .ok i ∧ exec i t = .next u ∧ step s = .next u ∧ u.faultFlag = false))

/-- R173: while STATUS.FAULT = 1 every command is ignored, decoded or not, INIT included; a run of any number of steps
with only commands on the port changes nothing but the port; and such an end of a run is a fault. -/
def Obligations.FaultedBlockIgnoresEveryCommand : Prop :=
  (∀ (i : Instr) (s : State), s.faultFlag = true → exec i s = .next s) ∧
  (∀ (n : Nat) (s : State), s.faultFlag = true → (∀ e ∈ s.port, ∃ w, e = .command w) →
    Host.Core.run Sys2Proof.core n s = .next ({ s with port := s.port.drop n } : State)) ∧
  (∀ s : State, s.faultFlag = true → endOfRun s = .fault (.commandFaulted s.cause s.fcmd))

/-- R170: a legal command at an initialised, unfaulted block never faults; nor does a sequence of them, of any length. -/
def Obligations.LegalCommandAtInitialisedBlockNeverFaults : Prop :=
  (∀ (w : CmdWord) (i : Instr) (s : State), decode w = .ok i → s.initFlag = true → s.faultFlag = false →
    ∃ t, performWord w s = .next t ∧ t.faultFlag = false ∧ t.initFlag = true ∧ t.cause = s.cause ∧ t.fcmd = s.fcmd) ∧
  (∀ (ws : List CmdWord) (s : State), (∀ w ∈ ws, ∃ i, decode w = .ok i) → s.initFlag = true → s.faultFlag = false →
    ∃ t, issueAll ws s = .next t ∧ t.faultFlag = false ∧ t.initFlag = true)

/-- A command that reads an accumulator, issued while STATUS.INIT = 0, faults with NOT_INITIALISED and records its own
word; INIT never does (60_exceptions.md R171). -/
def Obligations.ReadersFaultBeforeInit : Prop :=
  ∀ (i : Instr) (s : State), s.faultFlag = false → s.initFlag = false →
    (readsAccumulator i = true → exec i s = .next (recordFault 4#32 (encode i) s)) ∧
    (∀ t, readsAccumulator i = false → exec i s = .next t → t.faultFlag = true → t.cause = 3#3)

/-! ## Reset (70_reset_and_hazards.md R190, R191) -/

/-- What reset leaves, at power-on and as an event (between commands or during one), and that no other event clears FAULT,
CAUSE, INIT or FCMD (R190). The registers whose reset value is unspecified hold no value (10_state.md R36).
The model's choices in it: that resets and commands arrive as entries of a port (log entry 3); that a reset leaves the rest
of the port, `t.port = rest` (log entry 4); and that "no value" for a host read of RES or DOUT is a completed read
that returns `noValue` (log entry 2). That the unspecified fields are zero is log entry 1 and is not stated. -/
def Obligations.ResetLeavesTheSpecifiedValues : Prop :=
  (∀ t : State, (t = State.reset ∨ ∃ s e rest, s.port = e :: rest ∧ (∀ w, e ≠ .command w) ∧ step s = .next t ∧ t.port = rest) →
    t.status = 0#32 ∧ t.initFlag = false ∧ t.faultFlag = false ∧ t.cause = 0#3 ∧ t.var = 0#2 ∧ t.fcmd = 0#16 ∧ t.dlen = 0#5 ∧
    hostRead .res t = .next (.noValue .res) ∧ hostRead .dout t = .next (.noValue .dout) ∧
    t.holdsValue .acc32 = false ∧ t.holdsValue .acc64Lo = false ∧ t.holdsValue .acc64Hi = false) ∧
  (∀ (s : State) (e : HostEvent) (rest : List HostEvent), s.port = e :: rest → (∀ w, e ≠ .command w) →
    ∃ t, step s = .next t ∧ t.port = rest) ∧
  (∀ s t : State, step s = .next t → (s.port = [] ∨ ∃ w rest, s.port = .command w :: rest) →
    (s.initFlag = true → t.initFlag = true) ∧
    (s.faultFlag = true → t.faultFlag = true ∧ t.cause = s.cause ∧ t.fcmd = s.fcmd))

/-- The only commands that do not fault at a block as reset leaves it, with FAULT = 0 and INIT = 0 and whatever its other
registers hold, are the three INITs (70_reset_and_hazards.md R191). -/
def Obligations.OnlyInitSucceedsAfterReset : Prop :=
  ∀ (w : CmdWord) (s : State), s.faultFlag = false → s.initFlag = false →
    ∃ t, performWord w s = .next t ∧ (t.faultFlag = false ↔ isInitWord w)

/-! ## The six commands -/

/-- R110, R113: INIT V, in every state and for every V. -/
def Obligations.InitSeedsBothCoresAndSelectsTheVariant : Prop :=
  ∀ s : State,
    (∀ v, s.faultFlag = true → exec (.init v) s = .next s) ∧
    (s.faultFlag = false →
      exec (.init 0#2) s = .next { s with acc32 := 0x00000000#32, acc64Hi := 0x00000000#32, acc64Lo := 0x00000000#32,
                                          status := (s.status &&& 0xFFFFFF9F#32) ||| 0x01#32 } ∧
      exec (.init 1#2) s = .next { s with acc32 := 0x811C9DC5#32, acc64Hi := 0xCBF29CE4#32, acc64Lo := 0x84222325#32,
                                          status := (s.status &&& 0xFFFFFF9F#32) ||| 0x21#32 } ∧
      exec (.init 2#2) s = .next { s with acc32 := 0x811C9DC5#32, acc64Hi := 0xCBF29CE4#32, acc64Lo := 0x84222325#32,
                                          status := (s.status &&& 0xFFFFFF9F#32) ||| 0x41#32 } ∧
      exec (.init 3#2) s = .next (recordFault 3#32 0x1003#16 s) ∧
      (∀ w : CmdWord, w.toNat / 0x1000 = 1 → w &&& 0x0FFC#16 ≠ 0#16 → performWord w s = .next (recordFault 2#32 w s)))

/-- R115: ABSORB B, in every state and for every byte, with the 64-bit accumulator as one true 64-bit value; and what INIT
and any sequence of ABSORBs leaves. -/
def Obligations.AbsorbStepsBothCores : Prop :=
  (∀ (b : Byte) (s : State),
    (s.faultFlag = true → exec (.absorb b) s = .next s) ∧
    (s.faultFlag = false → s.initFlag = false →
      exec (.absorb b) s = .next (recordFault 4#32 (BitVec.ofNat 16 (0x2000 + b.toNat)) s)) ∧
    (s.faultFlag = false → s.initFlag = true →
      let a64 := hashStep64 s.var (BitVec.ofNat 64 (s.acc64Hi.toNat * 2 ^ 32 + s.acc64Lo.toNat)) b
      exec (.absorb b) s = .next { s with acc32 := hashStep32 s.var s.acc32 b,
                                          acc64Hi := BitVec.ofNat 32 (a64.toNat / 2 ^ 32),
                                          acc64Lo := BitVec.ofNat 32 (a64.toNat % 2 ^ 32) }) ∧
    (∀ w : CmdWord, s.faultFlag = false → w.toNat / 0x1000 = 2 → w &&& 0x0F00#16 ≠ 0#16 →
      performWord w s = .next (recordFault 2#32 w s))) ∧
  (∀ (v : BitVec 2) (bytes : List Byte) (s : State), v ≠ 3#2 → s.faultFlag = false →
    ∃ t, issueAll (encode (.init v) :: absorbWords bytes) s = .next t ∧
      t.acc32 = bytes.foldl (hashStep32 v) (seedOf32 v) ∧
      t.acc64Hi.toNat * 2 ^ 32 + t.acc64Lo.toNat = (bytes.foldl (hashStep64 v) (seedOf64 v)).toNat)

/-- R134: DIGEST32, in every state. -/
def Obligations.Digest32WritesEightHexCharacters : Prop :=
  ∀ s : State,
    (s.faultFlag = true → exec .digest32 s = .next s) ∧
    (s.faultFlag = false → s.initFlag = false → exec .digest32 s = .next (recordFault 4#32 0x3000#16 s)) ∧
    (s.faultFlag = false → s.initFlag = true →
      ∃ d : Vector Byte 16, exec .digest32 s = .next { s with dout := d, dlen := 8#5 } ∧
        ∀ i : Fin 16, d[i] = if i.val < 8 then hexByte (s.acc32.toNat / 16 ^ (7 - i.val) % 16) else 0x00#8) ∧
    (∀ w : CmdWord, s.faultFlag = false → w.toNat / 0x1000 = 3 → w &&& 0x0FFE#16 ≠ 0#16 →
      performWord w s = .next (recordFault 2#32 w s))

/-- R135: DIGEST64, in every state. -/
def Obligations.Digest64WritesSixteenHexCharacters : Prop :=
  ∀ s : State,
    (s.faultFlag = true → exec .digest64 s = .next s) ∧
    (s.faultFlag = false → s.initFlag = false → exec .digest64 s = .next (recordFault 4#32 0x3001#16 s)) ∧
    (s.faultFlag = false → s.initFlag = true →
      ∃ d : Vector Byte 16, exec .digest64 s = .next { s with dout := d, dlen := 16#5 } ∧
        ∀ i : Fin 16, d[i] = hexByte ((s.acc64Hi.toNat * 2 ^ 32 + s.acc64Lo.toNat) / 16 ^ (15 - i.val) % 16)) ∧
    (∀ w : CmdWord, s.faultFlag = false → w.toNat / 0x1000 = 3 → w &&& 0x0FFE#16 ≠ 0#16 →
      performWord w s = .next (recordFault 2#32 w s))

/-- R136: RDACC32, in every state. RES then holds a value (R36). -/
def Obligations.Rdacc32CopiesAcc32ZeroExtended : Prop :=
  ∀ s : State,
    (s.faultFlag = true → exec .rdacc32 s = .next s) ∧
    (s.faultFlag = false → s.initFlag = false → exec .rdacc32 s = .next (recordFault 4#32 0x4000#16 s)) ∧
    (s.faultFlag = false → s.initFlag = true →
      exec .rdacc32 s = .next { s with res := BitVec.ofNat 64 s.acc32.toNat, resWritten := true }) ∧
    (∀ w : CmdWord, s.faultFlag = false → w.toNat / 0x1000 = 4 → w &&& 0x0FFE#16 ≠ 0#16 →
      performWord w s = .next (recordFault 2#32 w s))

/-- R137: RDACC64, in every state. -/
def Obligations.Rdacc64CopiesBothWords : Prop :=
  ∀ s : State,
    (s.faultFlag = true → exec .rdacc64 s = .next s) ∧
    (s.faultFlag = false → s.initFlag = false → exec .rdacc64 s = .next (recordFault 4#32 0x4001#16 s)) ∧
    (s.faultFlag = false → s.initFlag = true →
      exec .rdacc64 s = .next { s with res := BitVec.ofNat 64 (s.acc64Hi.toNat * 2 ^ 32 + s.acc64Lo.toNat),
                                       resWritten := true }) ∧
    (∀ w : CmdWord, s.faultFlag = false → w.toNat / 0x1000 = 4 → w &&& 0x0FFE#16 ≠ 0#16 →
      performWord w s = .next (recordFault 2#32 w s))

/-- The frame of every command, register by register (10_state.md R20, column "written by"): the block has no memory. A
command that faults writes STATUS and FCMD only. -/
def Obligations.FrameOfEveryCommand : Prop :=
  ∀ (i : Instr) (s t : State), exec i s = .next t →
    t.port = s.port ∧
    ((∀ v, i ≠ .init v) → (∀ b, i ≠ .absorb b) →
      t.acc32 = s.acc32 ∧ t.acc64Lo = s.acc64Lo ∧ t.acc64Hi = s.acc64Hi) ∧
    (i ≠ .digest32 → i ≠ .digest64 → t.dout = s.dout ∧ t.dlen = s.dlen) ∧
    (i ≠ .rdacc32 → i ≠ .rdacc64 → t.res = s.res ∧ t.resWritten = s.resWritten) ∧
    (t.faultFlag = s.faultFlag → t.fcmd = s.fcmd ∧ t.cause = s.cause) ∧
    (t.faultFlag = s.faultFlag → (∀ v, i ≠ .init v) → t.status = s.status) ∧
    (t.faultFlag ≠ s.faultFlag → t.acc32 = s.acc32 ∧ t.acc64Lo = s.acc64Lo ∧ t.acc64Hi = s.acc64Hi ∧
      t.dout = s.dout ∧ t.dlen = s.dlen ∧ t.res = s.res ∧ t.resWritten = s.resWritten ∧
      t.initFlag = s.initFlag ∧ t.var = s.var) ∧
    statusReserved t.status = statusReserved s.status

/-! ## The datapath (40_width32_core.md, 41_width64_core.md, 43_hex_encoder.md) -/

/-- R82: `mul32` is a bijection, and multiplication by 0x359C449B undoes it. -/
def Obligations.Mul32IsABijectionWithItsInverse : Prop :=
  Function.Bijective mul32 ∧ (∀ a : Word32, mul32 a * 0x359C449B#32 = a) ∧ (0x01000193 * 0x359C449B) % 2 ^ 32 = 1 ∧
  (∀ a b : Word32, a ≠ b → mul32 a ≠ mul32 b)

/-- R92: `mul64` is a bijection, and multiplication by 0xCE965057AFF6957B undoes it. -/
def Obligations.Mul64IsABijectionWithItsInverse : Prop :=
  Function.Bijective mul64 ∧ (∀ a : Word64, mul64 a * 0xCE965057AFF6957B#64 = a)

/-- R93: the dual-word multiplier gives the true 64-bit product, for every HI and LO. -/
def Obligations.DualWordMultiplyIsTheTrueProduct : Prop :=
  ∀ hi lo : Word32,
    (mul64dw hi lo).1.toNat * 2 ^ 32 + (mul64dw hi lo).2.toNat =
      (hi.toNat * 2 ^ 32 + lo.toNat) * 0x100000001B3 % 2 ^ 64 ∧
    joinWords (mul64dw hi lo).1 (mul64dw hi lo).2 = mul64 (joinWords hi lo)

/-- The multiplier in 16-bit limbs gives the dual-word multiplier's result (R94), so that no `MUL64_IMPL` can be told from
another (00_scope.md R9, 44_dispatch.md R160). -/
def Obligations.MultiplyRealisationsAreUnobservable : Prop :=
  (∀ hi lo : Word32, mul64limbs hi lo = mul64dw hi lo) ∧
  (∀ (m n : Mul64Impl) (hi lo : Word32), mul64By m hi lo = mul64By n hi lo)

/-- One step on the dual word is one step on the 64-bit value, in both orderings (41_width64_core.md R95, R96). -/
def Obligations.DualWordStepIsTheTrueStep : Prop :=
  ∀ (ord : StepOrder) (hi lo : Word32) (b : Byte),
    joinWords (step64dw ord hi lo b).1 (step64dw ord hi lo b).2 = step64 ord (joinWords hi lo) b ∧
    joinWords (xor64dw hi lo b).1 (xor64dw hi lo b).2 = xor64 (joinWords hi lo) b

/-- R87: from a zero seed in the multiply-then-XOR ordering, leading zero bytes leave no trace at width 32, and a trailing
one does. -/
def Obligations.LeadingZeroBytesLeaveNoTraceAtWidth32 : Prop :=
  (∀ (k : Nat) (bytes : List Byte), fold32 .mtx 0#32 (List.replicate k 0x00#8 ++ bytes) = fold32 .mtx 0#32 bytes) ∧
  (∀ k : Nat, fold32 .mtx 0#32 (List.replicate k 0x00#8) = 0) ∧
  fold32 .mtx 0#32 [0x61#8] = 0x00000061#32 ∧ fold32 .mtx 0#32 [0x61#8, 0x00#8] = 0x610098B3#32

/-- The same at width 64 (41_width64_core.md R97). -/
def Obligations.LeadingZeroBytesLeaveNoTraceAtWidth64 : Prop :=
  ∀ (k : Nat) (bytes : List Byte), fold64 .mtx 0#64 (List.replicate k 0x00#8 ++ bytes) = fold64 .mtx 0#64 bytes

/-- R131: `hex16` is the two words' renderings one after the other, and the direct rendering of the 64-bit value. -/
def Obligations.Hex16IsTheDirectRendering : Prop :=
  ∀ hi lo : Word32, hex16 hi lo = hex8 hi ++ hex8 lo ∧ (hex16 hi lo).length = 16 ∧
    ∀ i, i < 16 → (hex16 hi lo)[i]? = some (hexchar ((joinWords hi lo).extractLsb' (60 - 4 * i) 4))

/-- R132: only lowercase hex digits, the length by the width alone, and a digest determines its accumulator. -/
def Obligations.HexRenderingIsInjective : Prop :=
  (∀ w : Word32, (hex8 w).length = 8 ∧ ∀ c ∈ hex8 w, c ∈ "0123456789abcdef".toList) ∧
  (∀ hi lo : Word32, (hex16 hi lo).length = 16 ∧ ∀ c ∈ hex16 hi lo, c ∈ "0123456789abcdef".toList) ∧
  (∀ a b : Word32, hex8 a = hex8 b → a = b) ∧
  (∀ hi lo hi' lo' : Word32, hex16 hi lo = hex16 hi' lo' → joinWords hi lo = joinWords hi' lo')

/-- R138: DOUT after DIGEST is the rendering of RES after RDACC, for the same accumulator. -/
def Obligations.DigestRendersWhatRdaccReads : Prop :=
  ∀ s : State, s.faultFlag = false → s.initFlag = true →
    (∃ d r, exec .digest32 s = .next d ∧ exec .rdacc32 s = .next r ∧
      d.dout.toList.take 8 = (hex8 (lowWord r.res)).map charCode) ∧
    (∃ d r, exec .digest64 s = .next d ∧ exec .rdacc64 s = .next r ∧
      d.dout.toList = (hex16 (highWord r.res) (lowWord r.res)).map charCode)

/-! ## What the host sees (10_state.md R20, R36, R37; 20_memory.md R47, R50) -/

/-- A host read of an output register returns what the last command that wrote it left: RES after either RDACC, DOUT and
DLEN after either DIGEST, STATUS and FCMD after INIT and after a word that faults; a command that does not write a register
leaves the outcome of reading it. Every register the host has access to can be read in every state, and one that nothing
has written then has no value; the accumulators cannot be read (20_memory.md R50, 10_state.md R20, R36). That no value is
a completed read that returns `noValue` is the model's form (log entry 2). -/
def Obligations.HostReadsReturnTheLastWrite : Prop :=
  (∀ s t : State, s.faultFlag = false → s.initFlag = true →
    (exec .rdacc32 s = .next t → hostRead .res t = .next (.res (BitVec.ofNat 64 s.acc32.toNat))) ∧
    (exec .rdacc64 s = .next t → hostRead .res t = .next (.res s.acc64)) ∧
    (exec .digest32 s = .next t → hostRead .dout t = .next (.dout t.dout) ∧ hostRead .dlen t = .next (.dlen 8#5) ∧
      t.dout.toList.take 8 = hexBytes 8 s.acc32.toNat) ∧
    (exec .digest64 s = .next t → hostRead .dout t = .next (.dout t.dout) ∧ hostRead .dlen t = .next (.dlen 16#5) ∧
      t.dout.toList = hexBytes 16 s.acc64.toNat)) ∧
  (∀ (v : BitVec 2) (s t : State), v ≠ 3#2 → s.faultFlag = false → exec (.init v) s = .next t →
    hostRead .status t = .next (.status ((s.status &&& 0xFFFFFF9F#32) ||| 0x1#32 ||| (v.setWidth 32 <<< 5)))) ∧
  (∀ (w : CmdWord) (s t : State), s.faultFlag = false → performWord w s = .next t → t.faultFlag = true →
    hostRead .fcmd t = .next (.fcmd w) ∧
    hostRead .status t = .next (.status (recordFault (t.cause.setWidth 32) w s).status)) ∧
  (∀ (i : Instr) (s t : State), exec i s = .next t →
    (i ≠ .rdacc32 → i ≠ .rdacc64 → hostRead .res t = hostRead .res s) ∧
    (i ≠ .digest32 → i ≠ .digest64 → hostRead .dout t = hostRead .dout s ∧ hostRead .dlen t = hostRead .dlen s) ∧
    (t.faultFlag = s.faultFlag → hostRead .fcmd t = hostRead .fcmd s) ∧
    (t.faultFlag = s.faultFlag → (∀ v, i ≠ .init v) → hostRead .status t = hostRead .status s)) ∧
  (∀ s : State,
    hostRead .status s = .next (.status s.status) ∧ hostRead .fcmd s = .next (.fcmd s.fcmd) ∧
    hostRead .dlen s = .next (.dlen s.dlen) ∧
    (s.resWritten = false → hostRead .res s = .next (.noValue .res)) ∧
    (s.dlen = 0#5 → hostRead .dout s = .next (.noValue .dout))) ∧
  (∀ (r : RegId) (s : State), r.hostReadable = true → ∃ v, hostRead r s = .next v) ∧
  (∀ (r : RegId) (s : State), r.hostReadable = false → hostRead r s = .refused (.noHostAccess r))

/-- INIT, DIGEST and RDACC done twice are the same done once; ABSORB is not so (20_memory.md R47). -/
def Obligations.AllButAbsorbAreIdempotent : Prop :=
  (∀ (i : Instr) (s t : State), (∀ b, i ≠ .absorb b) → exec i s = .next t → exec i t = .next t) ∧
  (∃ (b : Byte) (s t u : State), exec (.absorb b) s = .next t ∧ exec (.absorb b) t = .next u ∧ u ≠ t)

/-- Neither accumulator has a say in the other: two states alike in STATUS and in one accumulator stay alike in it under
every command, whatever the other holds (10_state.md R32). -/
def Obligations.TheTwoWidthsAreIndependent : Prop :=
  ∀ (i : Instr) (s s' t t' : State), s.status = s'.status → exec i s = .next t → exec i s' = .next t' →
    t.status = t'.status ∧
    (s.acc32 = s'.acc32 → t.acc32 = t'.acc32) ∧
    (s.acc64Hi = s'.acc64Hi → s.acc64Lo = s'.acc64Lo → t.acc64Hi = t'.acc64Hi ∧ t.acc64Lo = t'.acc64Lo)

/-- A call's outcome depends on its own commands alone: from any two unfaulted states, whatever went before, the same INIT,
ABSORBs and RDACC leave the same RES, and INIT, ABSORBs and DIGEST the same DOUT and DLEN (10_state.md R37). -/
def Obligations.ACallDependsOnItsOwnCommandsOnly : Prop :=
  ∀ (v : Variant) (w : Width) (bytes : List Byte) (s s' : State), s.faultFlag = false → s'.faultFlag = false →
    (∃ t t', issueAll (encode (.init (variantCode v)) :: absorbWords bytes ++ [encode (rdaccInstr w)]) s = .next t ∧
      issueAll (encode (.init (variantCode v)) :: absorbWords bytes ++ [encode (rdaccInstr w)]) s' = .next t' ∧
      t.res = t'.res ∧ t.faultFlag = false ∧ t'.faultFlag = false) ∧
    (∃ t t', issueAll (hashWords v w bytes) s = .next t ∧ issueAll (hashWords v w bytes) s' = .next t' ∧
      t.dout = t'.dout ∧ t.dlen = t'.dlen ∧ t.faultFlag = false ∧ t'.faultFlag = false)

/-! ## The dispatch operations (44_dispatch.md) -/

/-- Commands issued in order by the host are so many steps of the machine with those commands on its port
(00_scope.md R15, R18). -/
def Obligations.IssuingCommandsIsSteppingThePort : Prop :=
  ∀ (ws : List CmdWord) (rest : List HostEvent) (s : State),
    Host.Core.run Sys2Proof.core ws.length ({ s with port := ws.map HostEvent.command ++ rest } : State) =
      issueAll ws { s with port := rest }

/-- The commands of a dispatch operation: INIT V, one ABSORB per byte in order, DIGEST W; `len + 2` of them
(44_dispatch.md R151, R163). -/
def Obligations.DispatchIssuesLenPlusTwoCommands : Prop :=
  ∀ (v : Variant) (bytes : List Byte),
    let inits := BitVec.ofNat 16 (0x1000 + (variantCode v).toNat)
    let absorbs := bytes.map fun b => BitVec.ofNat 16 (0x2000 + b.toNat)
    hashWords v .w32 bytes = [inits] ++ absorbs ++ [0x3000#16] ∧ hashWords v .w64 bytes = [inits] ++ absorbs ++ [0x3001#16] ∧
    (hashWords v .w32 bytes).length = bytes.length + 2 ∧ (hashWords v .w64 bytes).length = bytes.length + 2

/-- R152: the value of a dispatch operation on a byte sequence, from every unfaulted state: the lowercase hex digits of the
32-bit or 64-bit hash, computed on true 32-bit and 64-bit numbers. -/
def Obligations.DispatchComputesTheHash : Prop :=
  ∀ (v : Variant) (bytes : List Byte) (s : State), s.faultFlag = false →
    (∃ t, hashBytes v .w32 bytes s =
      .next ⟨hexBytes 8 (bytes.foldl (hashStep32 (variantCode v)) (seedOf32 (variantCode v))).toNat, t⟩) ∧
    (∃ t, hashBytes v .w64 bytes s =
      .next ⟨hexBytes 16 (bytes.foldl (hashStep64 (variantCode v)) (seedOf64 (variantCode v))).toNat, t⟩)

/-- R153: from STATUS.FAULT = 0 a dispatch operation never faults, for every length; from STATUS.FAULT = 1 every command of
it is ignored, DOUT and DLEN stay, and it has no result. -/
def Obligations.DispatchNeverFaultsUnlessItStartsFaulted : Prop :=
  ∀ (v : Variant) (w : Width) (bytes : List Byte) (s : State),
    (s.faultFlag = false → ∃ r, hashBytes v w bytes s = .next r ∧ r.final.faultFlag = false) ∧
    (s.faultFlag = true → issueAll (hashWords v w bytes) s = .next s ∧
      hashBytes v w bytes s = .fault (.commandFaulted s.cause s.fcmd))

/-- R155: two runs of one dispatch operation on one byte sequence give the same digest, from whatever states they start. -/
def Obligations.DispatchIsDeterministic : Prop :=
  ∀ (v : Variant) (w : Width) (bytes : List Byte) (s s' : State), s.faultFlag = false → s'.faultFlag = false →
    ∃ d t t', hashBytes v w bytes s = .next ⟨d, t⟩ ∧ hashBytes v w bytes s' = .next ⟨d, t'⟩

/-- R156: a digest has 8 characters at width 32 and 16 at width 64, for every input. -/
def Obligations.DigestLengthIsFixedByTheWidth : Prop :=
  ∀ (v : Variant) (bytes : List Byte) (s : State), s.faultFlag = false →
    (∃ r, hashBytes v .w32 bytes s = .next r ∧ r.digest.length = 8) ∧
    (∃ r, hashBytes v .w64 bytes s = .next r ∧ r.digest.length = 16)

/-- R157: the digests of the empty input. -/
def Obligations.EmptyInputHashesToTheSeedsDigest : Prop :=
  ∀ s : State, s.faultFlag = false →
    (∃ t, hashBytes .orig .w32 [] s = .next ⟨"00000000".toList.map charCode, t⟩) ∧
    (∃ t, hashBytes .orig .w64 [] s = .next ⟨"0000000000000000".toList.map charCode, t⟩) ∧
    (∃ t, hashBytes .rev .w32 [] s = .next ⟨"811c9dc5".toList.map charCode, t⟩) ∧
    (∃ t, hashBytes .revx .w32 [] s = .next ⟨"811c9dc5".toList.map charCode, t⟩) ∧
    (∃ t, hashBytes .rev .w64 [] s = .next ⟨"cbf29ce484222325".toList.map charCode, t⟩) ∧
    (∃ t, hashBytes .revx .w64 [] s = .next ⟨"cbf29ce484222325".toList.map charCode, t⟩)

/-- R158: the digests of the single byte "a", with the correction of 90_conflicts.md C1. -/
def Obligations.SingleByteDigestsOfLetterA : Prop :=
  ∀ s : State, s.faultFlag = false →
    (∃ t, hashBytes .rev .w32 [0x61#8] s = .next ⟨"050c5d7e".toList.map charCode, t⟩) ∧
    (∃ t, hashBytes .revx .w32 [0x61#8] s = .next ⟨"e40c292c".toList.map charCode, t⟩)

/-- R117: REV and REVX have the same seeds and differ only in ordering; they give the same digests for every input whose
every byte is 0x00, and the seed's digest for the empty one. -/
def Obligations.RevAndRevxAgreeOnZeroBytes : Prop :=
  seed32 .rev = seed32 .revx ∧ seed64 .rev = seed64 .revx ∧
  ordering (variantCode .rev) = .mtx ∧ ordering (variantCode .revx) = .xtm ∧
  ∀ (k : Nat) (w : Width) (s : State), s.faultFlag = false →
    ∃ d t t', hashBytes .rev w (List.replicate k 0x00#8) s = .next ⟨d, t⟩ ∧
      hashBytes .revx w (List.replicate k 0x00#8) s = .next ⟨d, t'⟩ ∧
      (k = 0 → d = match w with
        | .w32 => hexBytes 8 0x811C9DC5
        | .w64 => hexBytes 16 0xCBF29CE484222325)

/-- R116: under ORIG leading zero bytes do not change the result, and all-zero inputs leave both accumulators 0; under REV
and REVX the empty input leaves the seeds, and a zero byte changes both accumulators. -/
def Obligations.OrigIgnoresLeadingZeroBytes : Prop :=
  (∀ (k : Nat) (w : Width) (bytes : List Byte) (s : State), s.faultFlag = false →
    ∃ d t t', hashBytes .orig w (List.replicate k 0x00#8 ++ bytes) s = .next ⟨d, t⟩ ∧
      hashBytes .orig w bytes s = .next ⟨d, t'⟩) ∧
  (∀ (k : Nat) (s : State), s.faultFlag = false →
    ∃ t, issueAll (encode (.init 0#2) :: absorbWords (List.replicate k 0x00#8)) s = .next t ∧
      t.acc32 = 0#32 ∧ t.acc64Hi = 0#32 ∧ t.acc64Lo = 0#32) ∧
  (∀ (v : BitVec 2) (s : State), v = 1#2 ∨ v = 2#2 → s.faultFlag = false →
    ∃ t u, exec (.init v) s = .next t ∧ exec (.absorb 0x00#8) t = .next u ∧
      t.acc32 = 0x811C9DC5#32 ∧ t.acc64 = 0xCBF29CE484222325#64 ∧
      u.acc32 = 0x050C5D1F#32 ∧ u.acc64 = 0xAF63BD4C8601B7DF#64)

/-- One sequence of ABSORBs serves both widths: DIGEST32 and then DIGEST64 after it give the digests of the two separate
calls (44_dispatch.md R159). -/
def Obligations.OneSequenceServesBothWidths : Prop :=
  ∀ (v : Variant) (bytes : List Byte) (s : State), s.faultFlag = false →
    ∃ t u r32 r64, issueAll (hashWords v .w32 bytes) s = .next t ∧ exec .digest64 t = .next u ∧
      hashBytes v .w32 bytes s = .next r32 ∧ hashBytes v .w64 bytes s = .next r64 ∧
      t.digest = r32.digest ∧ u.digest = r64.digest

/-- A dispatch operation on a buffer in host memory: over a readable buffer it is the operation on the buffer's bytes in
ascending order; over an unreadable address it gives no result; nor beyond the host's MAX_LEN (20_memory.md R40, R41). -/
def Obligations.DispatchReadsTheBufferInOrder : Prop :=
  ∀ (v : Variant) (w : Width) (m : HostMemory) (buf : Nat) (s : State),
    (∀ (p : HostParams) (bytes : List Byte), (∀ n, p.maxLen = some n → bytes.length ≤ n) →
      (∀ i, i < bytes.length → memRead m (buf + i) = bytes[i]?) →
      hashMacro p v w m buf bytes.length s = hashBytes v w bytes s) ∧
    (∀ len i, i < len → (∀ j, j < i → memRead m (buf + j) ≠ none) → memRead m (buf + i) = none →
      hashMacro HostParams.unbounded v w m buf len s = .refused (.bufferUnreadable (buf + i))) ∧
    (∀ len n, n < len → hashMacro ⟨some n⟩ v w m buf len s = .refused (.lengthBeyondMaxLen len))

/-! ## Instances and the invariant -/

/-- A step of one instance changes no other, and steps of two instances can be taken in either order (20_memory.md R52,
60_exceptions.md R181). -/
def Obligations.InstancesShareNothing : Prop :=
  (∀ (sys t : System) (k : Nat), sys.stepUnit k = .next t →
    t.units.length = sys.units.length ∧ (∀ j, j ≠ k → t.units[j]? = sys.units[j]?) ∧
    ∃ s u, sys.units[k]? = some s ∧ step s = .next u ∧ t.units[k]? = some u) ∧
  (∀ (sys : System) (j k : Nat), j ≠ k → j < sys.units.length → k < sys.units.length →
    System.runOrder [j, k] sys = System.runOrder [k, j] sys)

/-- The invariant holds after reset (10_state.md R22, R24, R29; 70_reset_and_hazards.md R190). -/
def Obligations.InvariantHoldsAfterReset : Prop := State.Inv State.reset

/-- Every step keeps the invariant: STATUS[31:7] zero, CAUSE at most 4, VAR never 3, no fault record without a fault, the
recorded word and cause those of a real fault, DLEN 0, 8 or 16, DOUT a digest of that length, nothing produced before INIT. -/
def Obligations.EveryStepKeepsTheInvariant : Prop :=
  ∀ s t : State, s.Inv → step s = .next t → t.Inv

/-! ## The pseudo-instruction ABSORBS (30_encoding.md R71) -/

/-- ABSORBS expands into one ABSORB per byte, in order: for a list of literals of any characters below 128, a comma, a
quote or a bracket among them; for a text of characters that neither end it nor can start an escape; and for a text of
escapes `\xHH`, of any bytes. The blank after the mnemonic, and none elsewhere, is one spelling of log entry 13. -/
def Obligations.AbsorbsExpandsToOneAbsorbPerByte : Prop :=
  (∀ cs : List Char, (∀ c ∈ cs, c.toNat < 128) →
    assembleLine ("ABSORBS [".toList ++ literalList cs ++ [']']) =
      some (.words (cs.map fun c => BitVec.ofNat 16 (0x2000 + c.toNat)))) ∧
  (∀ cs : List Char, (∀ c ∈ cs, c.toNat < 128 ∧ c ≠ '"' ∧ c ≠ '\\') →
    assembleLine ("ABSORBS ".toList ++ ['"'] ++ cs ++ ['"']) =
      some (.words (cs.map fun c => BitVec.ofNat 16 (0x2000 + c.toNat)))) ∧
  (∀ bytes : List Byte,
    assembleLine ("ABSORBS ".toList ++ ['"'] ++ escapedText bytes ++ ['"']) =
      some (.words (bytes.map fun b => BitVec.ofNat 16 (0x2000 + b.toNat))))
end

