-- ==== Sys2Proof/Laws/Decode.lean ====
section
/-! SUPPORT. The fields of a command word as arithmetic on its number, and the number of a command's word
(30_encoding.md R61, R62, R64, R70). -/

namespace Sys2Proof

variable (w : CmdWord)

theorem opField_toNat : (opField w).toNat = w.toNat / 4096 := by
  have := w.isLt
  rw [opField, BitVec.extractLsb'_toNat, Nat.shiftRight_eq_div_pow]
  omega

theorem variantField_toNat : (variantField w).toNat = w.toNat % 4 := by
  simp [variantField, BitVec.extractLsb'_toNat]

theorem byteField_toNat : (byteField w).toNat = w.toNat % 256 := by
  simp [byteField, BitVec.extractLsb'_toNat]

theorem widthField_toNat : (widthField w).toNat = w.toNat % 2 := by
  simp [widthField, BitVec.extractLsb'_toNat]

theorem reservedFV_toNat : (reservedFV w).toNat = w.toNat / 4 % 1024 := by
  simp [reservedFV, BitVec.extractLsb'_toNat, Nat.shiftRight_eq_div_pow]

theorem reservedFB_toNat : (reservedFB w).toNat = w.toNat / 256 % 16 := by
  simp [reservedFB, BitVec.extractLsb'_toNat, Nat.shiftRight_eq_div_pow]

theorem reservedFW_toNat : (reservedFW w).toNat = w.toNat / 2 % 2048 := by
  simp [reservedFW, BitVec.extractLsb'_toNat, Nat.shiftRight_eq_div_pow]

/-- The number of a command's word (R70). -/
theorem encode_toNat (i : Instr) :
    (encode i).toNat =
      match i with
      | .init v => 0x1000 + v.toNat
      | .absorb b => 0x2000 + b.toNat
      | .digest32 => 0x3000
      | .digest64 => 0x3001
      | .rdacc32 => 0x4000
      | .rdacc64 => 0x4001 := by
  cases i with
  | init v => revert v; decide
  | absorb b => revert b; decide
  | digest32 => rfl
  | digest64 => rfl
  | rdacc32 => rfl
  | rdacc64 => rfl

/-- The decoder never answers the one cause that is a check of the state (30_encoding.md R65). -/
theorem decode_ne_notInitialised : decode w ≠ .error .notInitialised := by
  unfold decode decodeFV decodeFB decodeFW
  repeat' split
  all_goals simp

end Sys2Proof
end

