-- ==== Sys2Proof/Laws/State.lean ====
section
/-! SUPPORT. One lemma per field of `State` per named update (Machine/Ops.lean), and what the readers of STATUS see of
each, so that no proof unfolds a record update. -/

namespace Sys2Proof.Machine

variable (s : State)

@[simp] theorem raiseFault_status (c : FaultCause) (cmd : CmdWord) : (raiseFault c cmd s).status = setCause (setFault s.status) (causeCode c) := rfl
@[simp] theorem raiseFault_fcmd (c : FaultCause) (cmd : CmdWord) : (raiseFault c cmd s).fcmd = cmd := rfl
@[simp] theorem raiseFault_res (c : FaultCause) (cmd : CmdWord) : (raiseFault c cmd s).res = s.res := rfl
@[simp] theorem raiseFault_dout (c : FaultCause) (cmd : CmdWord) : (raiseFault c cmd s).dout = s.dout := rfl
@[simp] theorem raiseFault_dlen (c : FaultCause) (cmd : CmdWord) : (raiseFault c cmd s).dlen = s.dlen := rfl
@[simp] theorem raiseFault_acc32 (c : FaultCause) (cmd : CmdWord) : (raiseFault c cmd s).acc32 = s.acc32 := rfl
@[simp] theorem raiseFault_acc64Lo (c : FaultCause) (cmd : CmdWord) : (raiseFault c cmd s).acc64Lo = s.acc64Lo := rfl
@[simp] theorem raiseFault_acc64Hi (c : FaultCause) (cmd : CmdWord) : (raiseFault c cmd s).acc64Hi = s.acc64Hi := rfl
@[simp] theorem raiseFault_resWritten (c : FaultCause) (cmd : CmdWord) : (raiseFault c cmd s).resWritten = s.resWritten := rfl
@[simp] theorem raiseFault_port (c : FaultCause) (cmd : CmdWord) : (raiseFault c cmd s).port = s.port := rfl

@[simp] theorem writeAccumulators_status (a hi lo : Word32) : (writeAccumulators a hi lo s).status = s.status := rfl
@[simp] theorem writeAccumulators_fcmd (a hi lo : Word32) : (writeAccumulators a hi lo s).fcmd = s.fcmd := rfl
@[simp] theorem writeAccumulators_res (a hi lo : Word32) : (writeAccumulators a hi lo s).res = s.res := rfl
@[simp] theorem writeAccumulators_dout (a hi lo : Word32) : (writeAccumulators a hi lo s).dout = s.dout := rfl
@[simp] theorem writeAccumulators_dlen (a hi lo : Word32) : (writeAccumulators a hi lo s).dlen = s.dlen := rfl
@[simp] theorem writeAccumulators_acc32 (a hi lo : Word32) : (writeAccumulators a hi lo s).acc32 = a := rfl
@[simp] theorem writeAccumulators_acc64Lo (a hi lo : Word32) : (writeAccumulators a hi lo s).acc64Lo = lo := rfl
@[simp] theorem writeAccumulators_acc64Hi (a hi lo : Word32) : (writeAccumulators a hi lo s).acc64Hi = hi := rfl
@[simp] theorem writeAccumulators_resWritten (a hi lo : Word32) : (writeAccumulators a hi lo s).resWritten = s.resWritten := rfl
@[simp] theorem writeAccumulators_port (a hi lo : Word32) : (writeAccumulators a hi lo s).port = s.port := rfl

@[simp] theorem selectVariant_status (v : BitVec 2) : (selectVariant v s).status = setInit (setVar s.status v) := rfl
@[simp] theorem selectVariant_fcmd (v : BitVec 2) : (selectVariant v s).fcmd = s.fcmd := rfl
@[simp] theorem selectVariant_res (v : BitVec 2) : (selectVariant v s).res = s.res := rfl
@[simp] theorem selectVariant_dout (v : BitVec 2) : (selectVariant v s).dout = s.dout := rfl
@[simp] theorem selectVariant_dlen (v : BitVec 2) : (selectVariant v s).dlen = s.dlen := rfl
@[simp] theorem selectVariant_acc32 (v : BitVec 2) : (selectVariant v s).acc32 = s.acc32 := rfl
@[simp] theorem selectVariant_acc64Lo (v : BitVec 2) : (selectVariant v s).acc64Lo = s.acc64Lo := rfl
@[simp] theorem selectVariant_acc64Hi (v : BitVec 2) : (selectVariant v s).acc64Hi = s.acc64Hi := rfl
@[simp] theorem selectVariant_resWritten (v : BitVec 2) : (selectVariant v s).resWritten = s.resWritten := rfl
@[simp] theorem selectVariant_port (v : BitVec 2) : (selectVariant v s).port = s.port := rfl

@[simp] theorem writeRes_status (v : Word64) : (writeRes v s).status = s.status := rfl
@[simp] theorem writeRes_fcmd (v : Word64) : (writeRes v s).fcmd = s.fcmd := rfl
@[simp] theorem writeRes_res (v : Word64) : (writeRes v s).res = v := rfl
@[simp] theorem writeRes_dout (v : Word64) : (writeRes v s).dout = s.dout := rfl
@[simp] theorem writeRes_dlen (v : Word64) : (writeRes v s).dlen = s.dlen := rfl
@[simp] theorem writeRes_acc32 (v : Word64) : (writeRes v s).acc32 = s.acc32 := rfl
@[simp] theorem writeRes_acc64Lo (v : Word64) : (writeRes v s).acc64Lo = s.acc64Lo := rfl
@[simp] theorem writeRes_acc64Hi (v : Word64) : (writeRes v s).acc64Hi = s.acc64Hi := rfl
@[simp] theorem writeRes_resWritten (v : Word64) : (writeRes v s).resWritten = true := rfl
@[simp] theorem writeRes_port (v : Word64) : (writeRes v s).port = s.port := rfl

@[simp] theorem writeDigest_status (codes : List Byte) (len : BitVec 5) : (writeDigest codes len s).status = s.status := rfl
@[simp] theorem writeDigest_fcmd (codes : List Byte) (len : BitVec 5) : (writeDigest codes len s).fcmd = s.fcmd := rfl
@[simp] theorem writeDigest_res (codes : List Byte) (len : BitVec 5) : (writeDigest codes len s).res = s.res := rfl
@[simp] theorem writeDigest_dout (codes : List Byte) (len : BitVec 5) : (writeDigest codes len s).dout = Vector.ofFn (fun i => codes[i.val]?.getD 0x00#8) := rfl
@[simp] theorem writeDigest_dlen (codes : List Byte) (len : BitVec 5) : (writeDigest codes len s).dlen = len := rfl
@[simp] theorem writeDigest_acc32 (codes : List Byte) (len : BitVec 5) : (writeDigest codes len s).acc32 = s.acc32 := rfl
@[simp] theorem writeDigest_acc64Lo (codes : List Byte) (len : BitVec 5) : (writeDigest codes len s).acc64Lo = s.acc64Lo := rfl
@[simp] theorem writeDigest_acc64Hi (codes : List Byte) (len : BitVec 5) : (writeDigest codes len s).acc64Hi = s.acc64Hi := rfl
@[simp] theorem writeDigest_resWritten (codes : List Byte) (len : BitVec 5) : (writeDigest codes len s).resWritten = s.resWritten := rfl
@[simp] theorem writeDigest_port (codes : List Byte) (len : BitVec 5) : (writeDigest codes len s).port = s.port := rfl

@[simp] theorem takeReset_status : (takeReset s).status = State.reset.status := rfl
@[simp] theorem takeReset_fcmd : (takeReset s).fcmd = State.reset.fcmd := rfl
@[simp] theorem takeReset_res : (takeReset s).res = State.reset.res := rfl
@[simp] theorem takeReset_dout : (takeReset s).dout = State.reset.dout := rfl
@[simp] theorem takeReset_dlen : (takeReset s).dlen = State.reset.dlen := rfl
@[simp] theorem takeReset_acc32 : (takeReset s).acc32 = State.reset.acc32 := rfl
@[simp] theorem takeReset_acc64Lo : (takeReset s).acc64Lo = State.reset.acc64Lo := rfl
@[simp] theorem takeReset_acc64Hi : (takeReset s).acc64Hi = State.reset.acc64Hi := rfl
@[simp] theorem takeReset_resWritten : (takeReset s).resWritten = State.reset.resWritten := rfl
@[simp] theorem takeReset_port : (takeReset s).port = s.port := rfl

/-! What an update that does not write STATUS leaves of its fields. -/

@[simp] theorem writeAccumulators_initFlag (a hi lo : Word32) : (writeAccumulators a hi lo s).initFlag = s.initFlag := rfl
@[simp] theorem writeAccumulators_faultFlag (a hi lo : Word32) : (writeAccumulators a hi lo s).faultFlag = s.faultFlag := rfl
@[simp] theorem writeAccumulators_cause (a hi lo : Word32) : (writeAccumulators a hi lo s).cause = s.cause := rfl
@[simp] theorem writeAccumulators_var (a hi lo : Word32) : (writeAccumulators a hi lo s).var = s.var := rfl

@[simp] theorem writeRes_initFlag (v : Word64) : (writeRes v s).initFlag = s.initFlag := rfl
@[simp] theorem writeRes_faultFlag (v : Word64) : (writeRes v s).faultFlag = s.faultFlag := rfl
@[simp] theorem writeRes_cause (v : Word64) : (writeRes v s).cause = s.cause := rfl
@[simp] theorem writeRes_var (v : Word64) : (writeRes v s).var = s.var := rfl

@[simp] theorem writeDigest_initFlag (codes : List Byte) (len : BitVec 5) : (writeDigest codes len s).initFlag = s.initFlag := rfl
@[simp] theorem writeDigest_faultFlag (codes : List Byte) (len : BitVec 5) : (writeDigest codes len s).faultFlag = s.faultFlag := rfl
@[simp] theorem writeDigest_cause (codes : List Byte) (len : BitVec 5) : (writeDigest codes len s).cause = s.cause := rfl
@[simp] theorem writeDigest_var (codes : List Byte) (len : BitVec 5) : (writeDigest codes len s).var = s.var := rfl

@[simp] theorem raiseFault_acc64 (c : FaultCause) (cmd : CmdWord) : (raiseFault c cmd s).acc64 = s.acc64 := rfl
@[simp] theorem selectVariant_acc64 (v : BitVec 2) : (selectVariant v s).acc64 = s.acc64 := rfl
@[simp] theorem writeRes_acc64 (v : Word64) : (writeRes v s).acc64 = s.acc64 := rfl
@[simp] theorem writeDigest_acc64 (codes : List Byte) (len : BitVec 5) : (writeDigest codes len s).acc64 = s.acc64 := rfl
@[simp] theorem writeAccumulators_acc64 (a hi lo : Word32) : (writeAccumulators a hi lo s).acc64 = joinWords hi lo := rfl

/-! The state with another port: every other field, and every field of STATUS, as before. -/

@[simp] theorem setPort_initFlag (p : List HostEvent) : ({ s with port := p } : State).initFlag = s.initFlag := rfl
@[simp] theorem setPort_faultFlag (p : List HostEvent) : ({ s with port := p } : State).faultFlag = s.faultFlag := rfl
@[simp] theorem setPort_cause (p : List HostEvent) : ({ s with port := p } : State).cause = s.cause := rfl
@[simp] theorem setPort_var (p : List HostEvent) : ({ s with port := p } : State).var = s.var := rfl
@[simp] theorem setPort_acc64 (p : List HostEvent) : ({ s with port := p } : State).acc64 = s.acc64 := rfl

/-! The reset state (70_reset_and_hazards.md R190). -/

@[simp] theorem reset_status : State.reset.status = 0#32 := rfl
@[simp] theorem reset_fcmd : State.reset.fcmd = 0#16 := rfl
@[simp] theorem reset_dlen : State.reset.dlen = 0#5 := rfl
@[simp] theorem reset_resWritten : State.reset.resWritten = false := rfl
@[simp] theorem reset_port : State.reset.port = [] := rfl
@[simp] theorem reset_initFlag : State.reset.initFlag = false := rfl
@[simp] theorem reset_faultFlag : State.reset.faultFlag = false := rfl
@[simp] theorem reset_cause : State.reset.cause = 0#3 := rfl
@[simp] theorem reset_var : State.reset.var = 0#2 := rfl

end Sys2Proof.Machine
end

