-- ==== Sys2Proof/Laws/Status.lean ====
section
/-! SUPPORT. STATUS (10_state.md R22): what each reader of a field sees after each writer of a field. -/

namespace Sys2Proof.Machine

variable (st : BitVec 32)

@[simp] theorem statusInit_setInit : statusInit (setInit st) = true := by
  simp [statusInit, setInit]
@[simp] theorem statusFault_setInit : statusFault (setInit st) = statusFault st := by
  simp [statusFault, setInit]
@[simp] theorem statusCause_setInit : statusCause (setInit st) = statusCause st := by
  apply BitVec.eq_of_getLsbD_eq
  intro i h
  interval_cases i <;> simp [statusCause, setInit]
@[simp] theorem statusVar_setInit : statusVar (setInit st) = statusVar st := by
  apply BitVec.eq_of_getLsbD_eq
  intro i h
  interval_cases i <;> simp [statusVar, setInit]
@[simp] theorem statusReserved_setInit : statusReserved (setInit st) = statusReserved st := by
  apply BitVec.eq_of_getLsbD_eq
  intro i h
  interval_cases i <;> simp [statusReserved, setInit]

@[simp] theorem statusInit_setFault : statusInit (setFault st) = statusInit st := by
  simp [statusInit, setFault]
@[simp] theorem statusFault_setFault : statusFault (setFault st) = true := by
  simp [statusFault, setFault]
@[simp] theorem statusCause_setFault : statusCause (setFault st) = statusCause st := by
  apply BitVec.eq_of_getLsbD_eq
  intro i h
  interval_cases i <;> simp [statusCause, setFault]
@[simp] theorem statusVar_setFault : statusVar (setFault st) = statusVar st := by
  apply BitVec.eq_of_getLsbD_eq
  intro i h
  interval_cases i <;> simp [statusVar, setFault]
@[simp] theorem statusReserved_setFault : statusReserved (setFault st) = statusReserved st := by
  apply BitVec.eq_of_getLsbD_eq
  intro i h
  interval_cases i <;> simp [statusReserved, setFault]

@[simp] theorem statusInit_setCause (c : BitVec 3) : statusInit (setCause st c) = statusInit st := by
  simp [statusInit, setCause]
@[simp] theorem statusFault_setCause (c : BitVec 3) : statusFault (setCause st c) = statusFault st := by
  simp [statusFault, setCause]
@[simp] theorem statusCause_setCause (c : BitVec 3) : statusCause (setCause st c) = c := by
  apply BitVec.eq_of_getLsbD_eq
  intro i h
  interval_cases i <;> simp [statusCause, setCause]
@[simp] theorem statusVar_setCause (c : BitVec 3) : statusVar (setCause st c) = statusVar st := by
  apply BitVec.eq_of_getLsbD_eq
  intro i h
  interval_cases i <;> simp [statusVar, setCause]
@[simp] theorem statusReserved_setCause (c : BitVec 3) : statusReserved (setCause st c) = statusReserved st := by
  apply BitVec.eq_of_getLsbD_eq
  intro i h
  interval_cases i <;> simp [statusReserved, setCause]

@[simp] theorem statusInit_setVar (v : BitVec 2) : statusInit (setVar st v) = statusInit st := by
  simp [statusInit, setVar]
@[simp] theorem statusFault_setVar (v : BitVec 2) : statusFault (setVar st v) = statusFault st := by
  simp [statusFault, setVar]
@[simp] theorem statusCause_setVar (v : BitVec 2) : statusCause (setVar st v) = statusCause st := by
  apply BitVec.eq_of_getLsbD_eq
  intro i h
  interval_cases i <;> simp [statusCause, setVar]
@[simp] theorem statusVar_setVar (v : BitVec 2) : statusVar (setVar st v) = v := by
  apply BitVec.eq_of_getLsbD_eq
  intro i h
  interval_cases i <;> simp [statusVar, setVar]
@[simp] theorem statusReserved_setVar (v : BitVec 2) : statusReserved (setVar st v) = statusReserved st := by
  apply BitVec.eq_of_getLsbD_eq
  intro i h
  interval_cases i <;> simp [statusReserved, setVar]

/-! The fields of a state's STATUS after the updates that write it. -/

variable (s : State)

@[simp] theorem raiseFault_faultFlag (c : FaultCause) (cmd : CmdWord) : (raiseFault c cmd s).faultFlag = true := by
  simp [State.faultFlag]

@[simp] theorem raiseFault_initFlag (c : FaultCause) (cmd : CmdWord) : (raiseFault c cmd s).initFlag = s.initFlag := by
  simp [State.initFlag]

@[simp] theorem raiseFault_cause (c : FaultCause) (cmd : CmdWord) : (raiseFault c cmd s).cause = causeCode c := by
  simp [State.cause]

@[simp] theorem raiseFault_var (c : FaultCause) (cmd : CmdWord) : (raiseFault c cmd s).var = s.var := by
  simp [State.var]

@[simp] theorem selectVariant_faultFlag (v : BitVec 2) : (selectVariant v s).faultFlag = s.faultFlag := by
  simp [State.faultFlag]

@[simp] theorem selectVariant_initFlag (v : BitVec 2) : (selectVariant v s).initFlag = true := by
  simp [State.initFlag]

@[simp] theorem selectVariant_cause (v : BitVec 2) : (selectVariant v s).cause = s.cause := by
  simp [State.cause]

@[simp] theorem selectVariant_var (v : BitVec 2) : (selectVariant v s).var = v := by
  simp [State.var]

end Sys2Proof.Machine
end

