-- ==== Sys2Proof/Laws/Words.lean ====
section
/-! SUPPORT. Numbers and bits of the words the datapath builds: concatenation (00_scope.md R10) at the widths it is used,
and the multiplies and seeds as bit-vector arithmetic. -/

namespace Sys2Proof.Machine

/-- `{HI, LO} = HI * 2^32 + LO` (R10, 10_state.md R31). -/
theorem joinWords_toNat (hi lo : Word32) : (joinWords hi lo).toNat = hi.toNat * 2 ^ 32 + lo.toNat := by
  show (hi ++ lo).toNat = _
  rw [BitVec.toNat_append, ← Nat.shiftLeft_add_eq_or_of_lt lo.isLt, Nat.shiftLeft_eq]

/-- A bit of `{HI, LO}`. -/
theorem joinWords_getLsbD (hi lo : Word32) (i : Nat) :
    (joinWords hi lo).getLsbD i = if i < 32 then lo.getLsbD i else hi.getLsbD (i - 32) :=
  BitVec.getLsbD_append

theorem highWord_toNat (v : Word64) : (highWord v).toNat = v.toNat / 2 ^ 32 := by
  have := v.isLt
  rw [highWord, BitVec.extractLsb'_toNat, Nat.shiftRight_eq_div_pow]
  omega

theorem lowWord_toNat (v : Word64) : (lowWord v).toNat = v.toNat % 2 ^ 32 := by
  rw [lowWord, BitVec.extractLsb'_toNat, Nat.shiftRight_eq_div_pow]
  omega

@[simp] theorem highWord_joinWords (hi lo : Word32) : highWord (joinWords hi lo) = hi := by
  apply BitVec.eq_of_toNat_eq
  have := hi.isLt
  have := lo.isLt
  rw [highWord_toNat, joinWords_toNat]
  omega

@[simp] theorem lowWord_joinWords (hi lo : Word32) : lowWord (joinWords hi lo) = lo := by
  apply BitVec.eq_of_toNat_eq
  have := lo.isLt
  rw [lowWord_toNat, joinWords_toNat]
  omega

/-- A 64-bit word is the pair of its words. -/
@[simp] theorem joinWords_high_low (v : Word64) : joinWords (highWord v) (lowWord v) = v := by
  apply BitVec.eq_of_toNat_eq
  have := v.isLt
  rw [joinWords_toNat, highWord_toNat, lowWord_toNat]
  omega

/-- `{r1, r0}` of two 16-bit limbs, as a number (41_width64_core.md R94). -/
theorem joinLimbs_toNat (hi lo : BitVec 16) : (joinLimbs hi lo).toNat = hi.toNat * 2 ^ 16 + lo.toNat := by
  show (hi ++ lo).toNat = _
  rw [BitVec.toNat_append, ← Nat.shiftLeft_add_eq_or_of_lt lo.isLt, Nat.shiftLeft_eq]

/-- `mul32` as a product of words (40_width32_core.md R81). -/
theorem mul32_eq_mul (a : Word32) : mul32 a = a * 0x01000193#32 := by
  apply BitVec.eq_of_toNat_eq
  rw [mul32, BitVec.toNat_mul, BitVec.toNat_ofNat]
  rfl

/-- `mul64` as a product of words (41_width64_core.md R91). -/
theorem mul64_eq_mul (a : Word64) : mul64 a = a * 0x100000001B3#64 := by
  apply BitVec.eq_of_toNat_eq
  rw [mul64, BitVec.toNat_mul, BitVec.toNat_ofNat]
  rfl

/-- The XOR of a byte into the low word is the XOR of the byte into the pair (R95). -/
theorem joinWords_xor_byte (hi lo : Word32) (b : Byte) :
    joinWords hi (lo ^^^ zextByte32 b) = joinWords hi lo ^^^ zextByte64 b := by
  apply BitVec.eq_of_getLsbD_eq
  intro i h
  rw [BitVec.getLsbD_xor, joinWords_getLsbD, joinWords_getLsbD, BitVec.getLsbD_xor]
  by_cases hi32 : i < 32
  · simp [hi32, h, zextByte32, zextByte64]
  · have : 8 ≤ i := by omega
    simp [hi32, zextByte64, this]

/-- The code of a variant names that variant. -/
@[simp] theorem variantOfCode_variantCode (v : Variant) : variantOfCode (variantCode v) = some v := by
  cases v <;> rfl

/-- The reserved code, and only it, names no variant (30_encoding.md R67). -/
theorem variantOfCode_eq_none_iff (v : BitVec 2) : variantOfCode v = none ↔ v = 3#2 := by
  revert v
  decide

/-- A variant has the code it is selected by. -/
theorem variantCode_of_variantOfCode {v : BitVec 2} {var : Variant} (h : variantOfCode v = some var) :
    variantCode var = v := by
  revert var v
  decide +revert

/-- No variant has the reserved code (10_state.md R22). -/
@[simp] theorem variantCode_ne_three (v : Variant) : variantCode v ≠ 3#2 := by
  cases v <;> decide

/-- The length of `hex8` (43_hex_encoder.md R130). -/
@[simp] theorem hex8_length (w : Word32) : (hex8 w).length = 8 := by simp [hex8]

/-- The length of `hex16` (R131). -/
@[simp] theorem hex16_length (hi lo : Word32) : (hex16 hi lo).length = 16 := by
  simp [hex16]

/-- Character `i` of `hex8` (R130). -/
theorem hex8_getElem? (w : Word32) (i : Nat) (h : i < 8) :
    (hex8 w)[i]? = some (hexchar (w.extractLsb' (28 - 4 * i) 4)) := by
  simp [hex8, h]

/-- The byte of a digit character (00_scope.md R14). -/
theorem charCode_hexchar (n : BitVec 4) :
    charCode (hexchar n) = if n.toNat ≤ 9 then BitVec.ofNat 8 (0x30 + n.toNat) else BitVec.ofNat 8 (0x61 + (n.toNat - 10)) := by
  revert n
  decide

end Sys2Proof.Machine
end

