-- ==== Sys2Proof/Laws/Exec.lean ====
section
/-! SUPPORT. What the shared operations, one command, one command word and one step can do, said once: later proofs cite
these and unfold nothing. -/

namespace Sys2Proof.Machine

/-! The checks around a command's effect (60_exceptions.md R171, R173). -/

@[simp] theorem unlessFaulted_of_fault {act : State → State} {s : State} (h : s.faultFlag = true) :
    unlessFaulted act s = .next s := by simp [unlessFaulted, h]

@[simp] theorem unlessFaulted_of_noFault {act : State → State} {s : State} (h : s.faultFlag = false) :
    unlessFaulted act s = .next (act s) := by simp [unlessFaulted, h]

@[simp] theorem requireInit_of_init {i : Instr} {act : State → State} {s : State} (h : s.initFlag = true) :
    requireInit i act s = act s := by simp [requireInit, h]

@[simp] theorem requireInit_of_noInit {i : Instr} {act : State → State} {s : State} (h : s.initFlag = false) :
    requireInit i act s = raiseFault .notInitialised (encode i) s := by simp [requireInit, h]

/-- Everything a guarded effect can do. -/
theorem unlessFaulted_cases {act : State → State} {s t : State} (h : unlessFaulted act s = .next t) :
    (s.faultFlag = true ∧ t = s) ∨ (s.faultFlag = false ∧ t = act s) := by
  cases hf : s.faultFlag
  · rw [unlessFaulted_of_noFault hf] at h
    exact .inr ⟨rfl, (Host.Outcome.next.inj h).symm⟩
  · rw [unlessFaulted_of_fault hf] at h
    exact .inl ⟨rfl, (Host.Outcome.next.inj h).symm⟩

/-! INIT's and ABSORB's effects, field by field. -/

@[simp] theorem startCall_acc64 (v : Variant) (s : State) : (startCall v s).acc64 = seed64 v :=
  joinWords_high_low (seed64 v)

@[simp] theorem startCall_acc32 (v : Variant) (s : State) : (startCall v s).acc32 = seed32 v := rfl

@[simp] theorem startCall_var (v : Variant) (s : State) : (startCall v s).var = variantCode v := by
  simp [startCall]

@[simp] theorem startCall_initFlag (v : Variant) (s : State) : (startCall v s).initFlag = true := by
  simp [startCall]

@[simp] theorem startCall_faultFlag (v : Variant) (s : State) : (startCall v s).faultFlag = s.faultFlag := by
  simp [startCall]

@[simp] theorem absorbByte_acc32 (b : Byte) (s : State) :
    (absorbByte b s).acc32 = step32 (ordering s.var) s.acc32 b := rfl

@[simp] theorem absorbByte_status (b : Byte) (s : State) : (absorbByte b s).status = s.status := rfl

@[simp] theorem absorbByte_initFlag (b : Byte) (s : State) : (absorbByte b s).initFlag = s.initFlag := rfl

@[simp] theorem absorbByte_faultFlag (b : Byte) (s : State) : (absorbByte b s).faultFlag = s.faultFlag := rfl

@[simp] theorem absorbByte_var (b : Byte) (s : State) : (absorbByte b s).var = s.var := rfl

/-- What a command does to a state, where it is performed: the effect `effectOf` names. -/
def effectOf (i : Instr) (s : State) : State :=
  match i with
  | .init v =>
    match variantOfCode v with
    | some var => startCall var s
    | none => raiseFault .reservedVariant (encode (.init v)) s
  | .absorb b => absorbByte b s
  | .digest32 => writeDigest ((hex8 s.acc32).map charCode) 8#5 s
  | .digest64 => writeDigest ((hex16 s.acc64Hi s.acc64Lo).map charCode) 16#5 s
  | .rdacc32 => writeRes (zextWord64 s.acc32) s
  | .rdacc64 => writeRes s.acc64 s

/-- INIT is its effect, unless faulted (42_variant_policy.md R113). -/
theorem exec_init (v : BitVec 2) (s : State) : exec (.init v) s = unlessFaulted (effectOf (.init v)) s := rfl

/-- Every other command reads an accumulator: its effect, where the block is initialised, unless faulted
(60_exceptions.md R171). -/
theorem exec_reader {i : Instr} (hi : ∀ v, i ≠ .init v) (s : State) :
    exec i s = unlessFaulted (requireInit i (effectOf i)) s := by
  cases i with
  | init v => exact absurd rfl (hi v)
  | absorb b => rfl
  | digest32 => rfl
  | digest64 => rfl
  | rdacc32 => rfl
  | rdacc64 => rfl

/-- Everything a command can do: nothing while FAULT is 1; the NOT_INITIALISED fault of a command that reads an
accumulator; its effect. -/
theorem exec_cases {i : Instr} {s t : State} (h : exec i s = .next t) :
    (s.faultFlag = true ∧ t = s) ∨
    (s.faultFlag = false ∧ s.initFlag = false ∧ (∀ v, i ≠ .init v) ∧ t = raiseFault .notInitialised (encode i) s) ∨
    (s.faultFlag = false ∧ (s.initFlag = true ∨ ∃ v, i = .init v) ∧ t = effectOf i s) := by
  by_cases hv : ∃ v, i = .init v
  · obtain ⟨v, rfl⟩ := hv
    rw [exec_init] at h
    rcases unlessFaulted_cases h with ⟨hf, ht⟩ | ⟨hf, ht⟩
    · exact .inl ⟨hf, ht⟩
    · exact .inr (.inr ⟨hf, .inr ⟨v, rfl⟩, ht⟩)
  · have hr : ∀ v, i ≠ .init v := fun v e => hv ⟨v, e⟩
    rw [exec_reader hr] at h
    rcases unlessFaulted_cases h with ⟨hf, ht⟩ | ⟨hf, ht⟩
    · exact .inl ⟨hf, ht⟩
    · cases hi : s.initFlag
      · exact .inr (.inl ⟨hf, rfl, hr, ht.trans (requireInit_of_noInit hi)⟩)
      · exact .inr (.inr ⟨hf, .inl rfl, ht.trans (requireInit_of_init hi)⟩)

/-- Everything one command word can do (60_exceptions.md R174). -/
theorem performWord_cases {cmd : CmdWord} {s t : State} (h : performWord cmd s = .next t) :
    (s.faultFlag = true ∧ t = s) ∨
    (s.faultFlag = false ∧ ∃ c, decode cmd = .error c ∧ t = raiseFault c cmd s) ∨
    (s.faultFlag = false ∧ ∃ i, decode cmd = .ok i ∧ exec i s = .next t) := by
  unfold performWord at h
  cases hf : s.faultFlag
  · simp only [hf, Bool.false_eq_true, if_false] at h
    cases hd : decode cmd with
    | error c =>
      rw [hd] at h
      exact .inr (.inl ⟨rfl, c, rfl, (Host.Outcome.next.inj h).symm⟩)
    | ok i =>
      rw [hd] at h
      exact .inr (.inr ⟨rfl, i, rfl, h⟩)
  · simp only [hf, if_true] at h
    exact .inl ⟨rfl, (Host.Outcome.next.inj h).symm⟩

/-- Everything one step can do: idle, a command word, or a reset. -/
theorem step_cases {s t : State} (h : step s = .next t) :
    (s.port = [] ∧ t = s) ∨
    (∃ cmd rest, s.port = .command cmd :: rest ∧ performWord cmd { s with port := rest } = .next t) ∨
    (∃ e rest, s.port = e :: rest ∧ (∀ cmd, e ≠ .command cmd) ∧ t = takeReset { s with port := rest }) := by
  unfold step at h
  cases hp : s.port with
  | nil =>
    rw [hp] at h
    exact .inl ⟨rfl, (Host.Outcome.next.inj h).symm⟩
  | cons e rest =>
    rw [hp] at h
    cases e with
    | command cmd => exact .inr (.inl ⟨cmd, rest, rfl, h⟩)
    | reset => exact .inr (.inr ⟨_, rest, rfl, by simp, (Host.Outcome.next.inj h).symm⟩)
    | resetDuring cmd => exact .inr (.inr ⟨_, rest, rfl, by simp, (Host.Outcome.next.inj h).symm⟩)

end Sys2Proof.Machine
end

