-- ==== Sys2Proof/Laws/HostMemory.lean ====
section
/-! SUPPORT. Host memory keeps its canonical form (the block writes no memory: 10_state.md R34). -/

namespace Sys2Proof.Machine

/-- A byte sequence laid out in host memory is in canonical form. -/
theorem ofBytes_wf (base : Nat) (bytes : List Byte) : HostMemory.wf (HostMemory.ofBytes base bytes) = true := by
  induction bytes generalizing base with
  | nil => rfl
  | cons b rest ih =>
    cases rest with
    | nil => rfl
    | cons c rest' =>
      have := ih (base + 1)
      simp only [HostMemory.ofBytes, HostMemory.wf, Bool.and_eq_true, decide_eq_true_eq] at this ⊢
      exact ⟨Nat.lt_succ_self base, this⟩

/-- The byte at an address of a laid-out sequence. -/
theorem memRead_ofBytes (base i : Nat) (bytes : List Byte) :
    memRead (HostMemory.ofBytes base bytes) (base + i) = bytes[i]? := by
  induction bytes generalizing base i with
  | nil => rfl
  | cons b rest ih =>
    cases i with
    | zero => simp [HostMemory.ofBytes, memRead]
    | succ k =>
      have := ih (base + 1) k
      rw [Nat.add_assoc, Nat.add_comm 1 k] at this
      simp [HostMemory.ofBytes, memRead, this]

end Sys2Proof.Machine
end

