-- ==== Sys2Proof/Laws/HostView.lean ====
section
/-! SUPPORT. What a host read returns (10_state.md R20, R36), register by register. -/

namespace Sys2Proof.Machine

variable (s : State)

theorem hostRead_status : hostRead .status s = .next (.status s.status) := rfl
theorem hostRead_fcmd : hostRead .fcmd s = .next (.fcmd s.fcmd) := rfl
theorem hostRead_dlen : hostRead .dlen s = .next (.dlen s.dlen) := rfl

theorem hostRead_res :
    hostRead .res s = .next (if s.resWritten = true then .res s.res else .noValue .res) := rfl

theorem hostRead_dout :
    hostRead .dout s = .next (if (s.dlen != 0#5) = true then .dout s.dout else .noValue .dout) := rfl

/-- A read of a register the host has access to completes, whatever the state. -/
theorem hostRead_completes {r : RegId} (h : r.hostReadable = true) : ∃ v, hostRead r s = .next v := by
  cases r <;> first | exact ⟨_, rfl⟩ | cases h

end Sys2Proof.Machine
end

