-- ==== Sys2Proof/Laws/PerInstr.lean ====
section
/-! SUPPORT. The family `TableMatch`: a command's word has, under its opcode-table row's mask, that row's match value
(30_encoding.md R63; spec/opcode_table.json). -/

namespace Sys2Proof.Laws

/-- The "mask" of a command's row. -/
def TableMatch.mask : Instr → CmdWord
  | .init _ => 0xFFFC
  | .absorb _ => 0xFF00
  | .digest32 => 0xFFFF
  | .digest64 => 0xFFFF
  | .rdacc32 => 0xFFFF
  | .rdacc64 => 0xFFFF

/-- The "match" of a command's row. -/
def TableMatch.value : Instr → CmdWord
  | .init _ => 0x1000
  | .absorb _ => 0x2000
  | .digest32 => 0x3000
  | .digest64 => 0x3001
  | .rdacc32 => 0x4000
  | .rdacc64 => 0x4001

def TableMatch.Statement (i : Instr) : Prop :=
  encode i &&& TableMatch.mask i = TableMatch.value i

theorem TableMatch.init (v : BitVec 2) : TableMatch.Statement (.init v) := by
  unfold TableMatch.Statement
  revert v
  decide

theorem TableMatch.absorb (b : Byte) : TableMatch.Statement (.absorb b) := by
  unfold TableMatch.Statement
  revert b
  decide

theorem TableMatch.digest32 : TableMatch.Statement .digest32 := by
  unfold TableMatch.Statement
  decide

theorem TableMatch.digest64 : TableMatch.Statement .digest64 := by
  unfold TableMatch.Statement
  decide

theorem TableMatch.rdacc32 : TableMatch.Statement .rdacc32 := by
  unfold TableMatch.Statement
  decide

theorem TableMatch.rdacc64 : TableMatch.Statement .rdacc64 := by
  unfold TableMatch.Statement
  decide

end Sys2Proof.Laws
end

