-- ==== Sys2Proof/Tests/Slice0.lean ====
section
/-! SUPPORT. The model's own tests and the witnesses of the statements' hypotheses. Every expected value is taken from
spec/ (the file and row each test names) or worked out from a rule by hand. -/

namespace Sys2Proof.Tests

open Sys2Proof Sys2Proof.Machine Sys2Proof.SpecView

/-- The state of a next-state outcome; the reset state for any other. -/
def stateOf : Result → State
  | .next t => t
  | .fault _ => State.reset
  | .refused _ => State.reset

/-- The block after INIT of a variant, issued after reset. -/
def started (v : BitVec 2) : State := stateOf (exec (.init v) State.reset)

/-- The block with a word waiting on its port. -/
def waiting (s : State) (w : CmdWord) : State := { s with port := [.command w] }

/-- A block that has recorded a fault: ABSORB before INIT. -/
def faulted : State := stateOf (performWord 0x2061#16 State.reset)

/-! ## Well-formedness: the one check, and what it refuses (30_encoding.md R67) -/

theorem test_wellFormed_refuses_reserved_variant : (Instr.init 3#2).wellFormed = false := by decide

theorem test_wellFormed_accepts_the_variants :
    (Instr.init 0#2).wellFormed = true ∧ (Instr.init 1#2).wellFormed = true ∧ (Instr.init 2#2).wellFormed = true := by
  decide

theorem test_wellFormed_accepts_every_byte : ∀ b : Byte, (Instr.absorb b).wellFormed = true := by decide

/-! ## Decoding: a word of every row, bit by bit (30_encoding.md R62, R63), and the refusals by name (R65 to R68) -/

theorem test_decode_init : decode 0b0001000000000010#16 = .ok (.init 2#2) := by decide
theorem test_decode_absorb : decode 0b0010000010000001#16 = .ok (.absorb 0x81#8) := by decide
theorem test_decode_digest32 : decode 0b0011000000000000#16 = .ok .digest32 := by decide
theorem test_decode_digest64 : decode 0b0011000000000001#16 = .ok .digest64 := by decide
theorem test_decode_rdacc32 : decode 0b0100000000000000#16 = .ok .rdacc32 := by decide
theorem test_decode_rdacc64 : decode 0b0100000000000001#16 = .ok .rdacc64 := by decide

/-- 95_test_vectors.md L2.8. -/
theorem test_decode_faults :
    decode 0x0000#16 = .error .illegalOpcode ∧ decode 0x5000#16 = .error .illegalOpcode ∧
    decode 0xFFFF#16 = .error .illegalOpcode ∧ decode 0x1004#16 = .error .reservedBits ∧
    decode 0x1100#16 = .error .reservedBits ∧ decode 0x1007#16 = .error .reservedBits ∧
    decode 0x2100#16 = .error .reservedBits ∧ decode 0x3002#16 = .error .reservedBits ∧
    decode 0x30FF#16 = .error .reservedBits ∧ decode 0x4003#16 = .error .reservedBits ∧
    decode 0x1003#16 = .error .reservedVariant := by decide

/-- 30_encoding.md R70. -/
theorem test_encode :
    encode (.init 1#2) = 0x1001#16 ∧ encode (.absorb 0xFF#8) = 0x20FF#16 ∧ encode .digest32 = 0x3000#16 ∧
    encode .digest64 = 0x3001#16 ∧ encode .rdacc32 = 0x4000#16 ∧ encode .rdacc64 = 0x4001#16 := by decide

theorem test_decodeTableWord :
    decodeTableWord 16 0x2061 = some (.absorb 0x61#8) ∧ decodeTableWord 16 0x1003 = none ∧
    decodeTableWord 16 0x12061 = none := by decide

/-! ## The datapath (95_test_vectors.md L2.1, L2.2, L2.3) -/

theorem test_mul32_wraps : mul32 0xFFFFFFFF#32 = 0xFEFFFE6D#32 ∧ mul32 0x811C9DC5#32 = 0x050C5D1F#32 := by decide

theorem test_step32_orderings :
    step32 .mtx 0xFFFFFFFF#32 0xFF#8 = 0xFEFFFE92#32 ∧ step32 .xtm 0xFFFFFFFF#32 0xFF#8 = 0xFFFE6D00#32 := by decide

theorem test_mul64_wraps :
    mul64 0xFFFFFFFFFFFFFFFF#64 = 0xFFFFFEFFFFFFFE4D#64 ∧ mul64 0x123456789ABCDEF0#64 = 0xABCDDEEEEEEED1D0#64 := by decide

theorem test_mul64dw_carry :
    mul64dw 0x00000000#32 0xFFFFFFFF#32 = (0x000000B2#32, 0xFFFFFE4D#32) ∧
    mul64dw 0x00000000#32 0x01000000#32 = (0x00000001#32, 0xB3000000#32) ∧
    mul64dw 0xCBF29CE4#32 0x84222325#32 = (0xAF63BD4C#32, 0x8601B7DF#32) := by decide

theorem test_mul64limbs_carry :
    mul64limbs 0xFFFFFFFF#32 0xFFFFFFFF#32 = (0xFFFFFEFF#32, 0xFFFFFE4D#32) ∧
    mul64limbs 0x12345678#32 0x9ABCDEF0#32 = (0xABCDDEEE#32, 0xEEEED1D0#32) := by decide

theorem test_step64_orderings :
    step64 .mtx 0xAF63BD4C8601B7DF#64 0x61#8 = 0x08328807B4EB6F8C#64 ∧
    step64 .xtm 0xAF63BD4C8601B7DF#64 0x61#8 = 0x08326707B4EB37DA#64 := by decide

/-- "foobar" (40_width32_core.md R85, 41_width64_core.md R97). -/
theorem test_fold_foobar :
    fold32 .mtx 0x811C9DC5#32 [0x66, 0x6F, 0x6F, 0x62, 0x61, 0x72] = 0x31F0B262#32 ∧
    fold64 .mtx 0xCBF29CE484222325#64 [0x66, 0x6F, 0x6F, 0x62, 0x61, 0x72] = 0x340D8765A4DDA9C2#64 := by decide

/-- 95_test_vectors.md L2.6. -/
theorem test_hex :
    hex8 0x0000000A#32 = "0000000a".toList ∧ hex8 0xDEADBEEF#32 = "deadbeef".toList ∧
    hex16 0xAF63BD4C#32 0x8601B7BE#32 = "af63bd4c8601b7be".toList := by decide

/-! ## The commands, one step each (95_test_vectors.md L2.4, L2.5, L2.7) -/

theorem test_init_rev :
    (started 1#2).acc32 = 0x811C9DC5#32 ∧ (started 1#2).acc64Hi = 0xCBF29CE4#32 ∧
    (started 1#2).acc64Lo = 0x84222325#32 ∧ (started 1#2).status = 0x00000021#32 := by decide

/-- INIT REV after INIT REVX replaces seeds and ordering (L2.4). -/
theorem test_init_again : (stateOf (exec (.init 1#2) (started 2#2))).status = 0x00000021#32 := by decide

theorem test_absorb_rev :
    (stateOf (exec (.absorb 0xFF#8) (started 1#2))).acc32 = 0x050C5DE0#32 ∧
    (stateOf (exec (.absorb 0xFF#8) (started 1#2))).acc64 = 0xAF63BD4C8601B720#64 := by decide

theorem test_absorb_revx :
    (stateOf (exec (.absorb 0xFF#8) (started 2#2))).acc32 = 0x7A0B824E#32 ∧
    (stateOf (exec (.absorb 0xFF#8) (started 2#2))).acc64 = 0xAF64724C8602EB6E#64 := by decide

theorem test_digest32 :
    (stateOf (exec .digest32 { started 1#2 with acc32 := 0x050C5D7E#32 })).dout =
      #v[0x30, 0x35, 0x30, 0x63, 0x35, 0x64, 0x37, 0x65, 0, 0, 0, 0, 0, 0, 0, 0] ∧
    (stateOf (exec .digest32 (started 1#2))).dlen = 8#5 := by decide

theorem test_digest64 :
    (stateOf (exec .digest64 { started 1#2 with acc64Hi := 0xAF63BD4C#32, acc64Lo := 0x8601B7BE#32 })).dout =
      #v[0x61, 0x66, 0x36, 0x33, 0x62, 0x64, 0x34, 0x63, 0x38, 0x36, 0x30, 0x31, 0x62, 0x37, 0x62, 0x65] ∧
    (stateOf (exec .digest64 (started 1#2))).dlen = 16#5 := by decide

theorem test_rdacc32 : (stateOf (exec .rdacc32 (started 1#2))).res = 0x00000000811C9DC5#64 := by decide
theorem test_rdacc64 : (stateOf (exec .rdacc64 (started 1#2))).res = 0xCBF29CE484222325#64 := by decide

/-! ## Faults, reset and the host's view (95_test_vectors.md L2.8, P4; 70_reset_and_hazards.md R190) -/

theorem test_fault_not_initialised : faulted.status = 0x00000012#32 ∧ faulted.fcmd = 0x2061#16 := by decide

theorem test_fault_illegal_after_init :
    (stateOf (step (waiting (started 1#2) 0x5000#16))).status = 0x00000027#32 ∧
    (stateOf (step (waiting (started 1#2) 0x5000#16))).fcmd = 0x5000#16 := by decide

theorem test_fault_priority :
    (stateOf (step (waiting (started 1#2) 0x1007#16))).status = 0x0000002B#32 ∧
    (stateOf (step (waiting State.reset 0x2100#16))).status = 0x0000000A#32 ∧
    (stateOf (step (waiting State.reset 0x1003#16))).status = 0x0000000E#32 := by decide

theorem test_fault_sticky : stateOf (step (waiting faulted 0x1001#16)) = faulted := by decide

theorem test_reset_event : stateOf (step { faulted with port := [.reset] }) = State.reset := by decide

theorem test_reset_during_command : stateOf (step { started 1#2 with port := [.resetDuring 0x2061#16] }) = State.reset := by
  decide

theorem test_withFetchWord_runs_next :
    (stateOf (step (State.reset.withFetchWord 16 0x1002))).status = 0x00000041#32 := by decide

theorem test_idle_holds : stateOf (step (started 1#2)) = started 1#2 := by decide

theorem test_read_before_write : hostRead .res State.reset = .next (.noValue .res) := rfl

/-! ## The host's macros and the assembler (44_dispatch.md R151; 30_encoding.md R70, R71) -/

/-- P7 of 95_test_vectors.md: HASH_REV_64 of "ab" issues 0x1001 0x2061 0x2062 0x3001. -/
theorem test_hash_words : hashWords .rev .w64 [0x61, 0x62] = [0x1001, 0x2061, 0x2062, 0x3001] := by decide

theorem test_read_buffer :
    readBuffer [(5, 0x61), (6, 0x62)] 5 2 = .ok [0x61, 0x62] ∧ readBuffer [(5, 0x61), (6, 0x62)] 5 3 = .error 7 := by decide

theorem test_assemble_absorb :
    assembleLine "ABSORB 97".toList = some (.words [0x2061]) ∧ assembleLine "ABSORB 0x61".toList = some (.words [0x2061]) ∧
    assembleLine "ABSORB 'a'".toList = some (.words [0x2061]) ∧ assembleLine "ABSORB 256".toList = none ∧
    assembleLine "DIGEST32 1".toList = none := by decide

theorem test_assemble_absorbs :
    assembleLine "ABSORBS [0x66, 111, 'o']".toList = some (.words [0x2066, 0x206F, 0x206F]) ∧
    assembleLine "ABSORBS \"a\\xFFb\"".toList = some (.words [0x2061, 0x20FF, 0x2062]) ∧
    assembleLine "ABSORBS \"\"".toList = some (.words []) ∧ assembleLine "ABSORBS []".toList = some (.words []) := by decide

/-- The literals of a comma, of an apostrophe and of a bracket as list elements (R70, R71). -/
theorem test_assemble_absorbs_literals :
    assembleLine "ABSORBS [',']".toList = some (.words [0x202C]) ∧
    assembleLine "ABSORBS ['a',',', ''', ']', 1]".toList = some (.words [0x2061, 0x202C, 0x2027, 0x205D, 0x2001]) ∧
    assembleLine "ABSORBS [1,,2]".toList = none ∧ assembleLine "ABSORBS ['ab']".toList = none := by decide

theorem test_assemble_hash :
    assembleLine "HASH_REVX_32 0x10, 3".toList = some (.hash .revx .w32 16 3) ∧
    assemble [(16, 0x61)] ["INIT REV".toList, "HASH_ORIG_32 16, 1".toList] = some [0x1001, 0x1000, 0x2061, 0x3000] := by decide

/-! ## Witnesses: concrete states and operands that meet every statement's hypotheses, each clause at a boundary value -/

theorem witness_DecodeAndEncodeAgree :
    (Instr.init 2#2).wellFormed = true ∧ decode 0x20FF#16 = .ok (.absorb 0xFF#8) := by decide

theorem witness_DecodeFollowsTheDecodingRule :
    ((0x1004#16).toNat / 4096 = 1 ∧ (0x1004#16).toNat / 4 % 1024 ≠ 0) ∧
    ((0x1003#16).toNat / 4096 = 1 ∧ (0x1003#16).toNat / 4 % 1024 = 0 ∧ (0x1003#16).toNat % 4 = 3) ∧
    ((0x1002#16).toNat / 4096 = 1 ∧ (0x1002#16).toNat / 4 % 1024 = 0 ∧ (0x1002#16).toNat % 4 ≠ 3) ∧
    ((0x2100#16).toNat / 4096 = 2 ∧ (0x2100#16).toNat / 256 % 16 ≠ 0) ∧
    ((0x20FF#16).toNat / 4096 = 2 ∧ (0x20FF#16).toNat / 256 % 16 = 0) ∧
    ((0x3002#16).toNat / 4096 = 3 ∧ (0x3002#16).toNat / 2 % 2048 ≠ 0) ∧
    ((0x4FFF#16).toNat / 4096 = 4 ∧ (0x4FFF#16).toNat / 2 % 2048 ≠ 0) ∧
    ((0x3001#16).toNat / 4096 = 3 ∧ (0x3001#16).toNat / 2 % 2048 = 0) ∧
    ((0x4001#16).toNat / 4096 = 4 ∧ (0x4001#16).toNat / 2 % 2048 = 0) ∧
    (0x0FFF#16).toNat / 4096 = 0 ∧ 5 ≤ (0x5000#16).toNat / 4096 := by
  refine ⟨?_, ?_, ?_, ?_, ?_, ?_, ?_, ?_, ?_, ?_, ?_⟩ <;> decide

theorem witness_LegalCommandWordsAreExactly263 :
    (2#2 : BitVec 2) ≠ 3#2 ∧ isInitWord 0x1000#16 ∧ isInitWord 0x1002#16 ∧ isReaderWord 0x2000#16 ∧
    isReaderWord 0x20FF#16 ∧ isReaderWord 0x4001#16 ∧ ¬ isInitWord 0x1003#16 ∧ ¬ isReaderWord 0x2100#16 := by
  unfold isInitWord isReaderWord
  decide

theorem witness_AssemblyTextAssemblesToTheWord :
    (Instr.absorb 0x0A#8).wellFormed = true ∧ assemblyText (.absorb 0x0A#8) = some "ABSORB 0x0A".toList := by decide

/-- The lowest and the highest code, and characters that delimit. -/
theorem witness_AbsorbsExpandsToOneAbsorbPerByte :
    (∀ c ∈ ['\x00', ',', '"', '\x7f'], c.toNat < 128) ∧ (∀ c ∈ ['\x00', '\x7f'], c.toNat < 128 ∧ c ≠ '"' ∧ c ≠ '\\') := by
  constructor <;> simp

theorem witness_StepRunsTheDecodedCommand :
    (waiting (started 1#2) 0x3001#16).port = [.command 0x3001#16] ∧ (waiting (started 1#2) 0x3001#16).faultFlag = false ∧
    decode 0x3001#16 = .ok .digest64 ∧ (started 1#2).port = [] := by decide

theorem witness_CommandWordCheckOrderAndFaultAction :
    (waiting faulted 0x1001#16).faultFlag = true ∧ (waiting State.reset 0x1001#16).faultFlag = false ∧
    hasReservedBit 0x1004#16 ∧ hasReservedBit 0x1800#16 ∧ hasReservedBit 0x2100#16 ∧ hasReservedBit 0x3002#16 ∧
    hasReservedBit 0x4800#16 ∧ ¬ hasReservedBit 0x1003#16 ∧ ¬ hasReservedBit 0x0FFF#16 ∧ ¬ hasReservedBit 0x5FFF#16 ∧
    isReaderWord 0x20FF#16 ∧ ¬ hasReservedBit 0x20FF#16 ∧ (waiting State.reset 0x20FF#16).initFlag = false ∧
    (waiting (started 0#2) 0x20FF#16).initFlag = true ∧ isInitWord 0x1002#16 ∧ ¬ hasReservedBit 0x1002#16 := by
  unfold hasReservedBit isReaderWord isInitWord
  refine ⟨?_, ?_, ?_, ?_, ?_, ?_, ?_, ?_, ?_, ?_, ?_, ?_, ?_, ?_, ?_, ?_⟩ <;> decide

theorem witness_FaultedBlockIgnoresEveryCommand :
    (waiting faulted 0x1001#16).faultFlag = true ∧ ∀ e ∈ (waiting faulted 0x1001#16).port, ∃ w, e = .command w := by
  refine ⟨by decide, ?_⟩
  intro e he
  exact ⟨0x1001#16, by simpa [waiting] using he⟩

theorem witness_LegalCommandAtInitialisedBlockNeverFaults :
    decode 0x1000#16 = .ok (.init 0#2) ∧ decode 0x4001#16 = .ok .rdacc64 ∧ (started 2#2).initFlag = true ∧
    (started 2#2).faultFlag = false := by decide

/-- The first and the last legal word, in one sequence. -/
theorem witness_LegalCommandAtInitialisedBlockNeverFaults_sequence :
    ∀ w ∈ [0x1000#16, 0x20FF#16, 0x4001#16], ∃ i, decode w = .ok i := by
  intro w hw
  simp only [List.mem_cons, List.not_mem_nil, or_false] at hw
  rcases hw with rfl | rfl | rfl
  exacts [⟨.init 0#2, by decide⟩, ⟨.absorb 0xFF#8, by decide⟩, ⟨.rdacc64, by decide⟩]

theorem witness_ReadersFaultBeforeInit :
    State.reset.faultFlag = false ∧ State.reset.initFlag = false ∧ readsAccumulator .rdacc32 = true ∧
    readsAccumulator (.init 3#2) = false ∧ (stateOf (exec (.init 3#2) State.reset)).faultFlag = true := by decide

theorem witness_ResetLeavesTheSpecifiedValues :
    ({ faulted with port := [.reset, .command 0x1001#16] } : State).port = .reset :: [.command 0x1001#16] ∧
    (∀ w, HostEvent.reset ≠ .command w) ∧ (∀ v w, HostEvent.resetDuring v ≠ .command w) ∧
    step { faulted with port := [.reset] } = .next State.reset ∧
    step (waiting (started 1#2) 0x5000#16) = .next (raiseFault .illegalOpcode 0x5000#16 (started 1#2)) :=
  ⟨rfl, by simp, by simp, rfl, rfl⟩

/-- Its last clause: a step over a command, and an idle one, from initialised and from faulted states. -/
theorem witness_ResetLeavesTheSpecifiedValues_kept :
    (waiting (started 1#2) 0x5000#16).port = .command 0x5000#16 :: [] ∧ (waiting (started 1#2) 0x5000#16).initFlag = true ∧
    faulted.port = [] ∧ faulted.faultFlag = true ∧ step faulted = .next faulted :=
  ⟨rfl, by decide, by decide, by decide, rfl⟩

/-- INIT: an unfaulted and a faulted state, and a word of OP 1 with a reserved bit set. -/
theorem witness_InitSeedsBothCoresAndSelectsTheVariant :
    State.reset.faultFlag = false ∧ faulted.faultFlag = true ∧ (0x1004#16).toNat / 0x1000 = 1 ∧
    0x1004#16 &&& 0x0FFC#16 ≠ 0#16 := by decide

/-- ABSORB, DIGEST32, DIGEST64, RDACC32, RDACC64: the states of their four clauses, and reserved-bit words. -/
theorem witness_AbsorbStepsBothCores :
    faulted.faultFlag = true ∧ State.reset.faultFlag = false ∧ State.reset.initFlag = false ∧
    (started 2#2).faultFlag = false ∧ (started 2#2).initFlag = true ∧ (started 2#2).var = 2#2 ∧ (started 1#2).var ≠ 2#2 ∧
    (0x2100#16).toNat / 0x1000 = 2 ∧ 0x2100#16 &&& 0x0F00#16 ≠ 0#16 ∧ (1#2 : BitVec 2) ≠ 3#2 := by decide

theorem witness_Digest32WritesEightHexCharacters :
    faulted.faultFlag = true ∧ State.reset.faultFlag = false ∧ State.reset.initFlag = false ∧
    (started 1#2).faultFlag = false ∧ (started 1#2).initFlag = true ∧ (0x3002#16).toNat / 0x1000 = 3 ∧
    0x3002#16 &&& 0x0FFE#16 ≠ 0#16 := by decide

theorem witness_Digest64WritesSixteenHexCharacters :
    faulted.faultFlag = true ∧ State.reset.faultFlag = false ∧ State.reset.initFlag = false ∧
    (started 1#2).faultFlag = false ∧ (started 1#2).initFlag = true ∧ (0x3801#16).toNat / 0x1000 = 3 ∧
    0x3801#16 &&& 0x0FFE#16 ≠ 0#16 := by decide

theorem witness_Rdacc32CopiesAcc32ZeroExtended :
    faulted.faultFlag = true ∧ State.reset.faultFlag = false ∧ State.reset.initFlag = false ∧
    (started 1#2).faultFlag = false ∧ (started 1#2).initFlag = true ∧ (0x4002#16).toNat / 0x1000 = 4 ∧
    0x4002#16 &&& 0x0FFE#16 ≠ 0#16 := by decide

theorem witness_Rdacc64CopiesBothWords :
    faulted.faultFlag = true ∧ State.reset.faultFlag = false ∧ State.reset.initFlag = false ∧
    (started 1#2).faultFlag = false ∧ (started 1#2).initFlag = true ∧ (0x4801#16).toNat / 0x1000 = 4 ∧
    0x4801#16 &&& 0x0FFE#16 ≠ 0#16 := by decide

/-- The frame: a command that runs (FAULT as before) and one that faults (FAULT changes). -/
theorem witness_FrameOfEveryCommand :
    (∃ t, exec .rdacc64 (started 1#2) = .next t ∧ t.faultFlag = (started 1#2).faultFlag) ∧
    (∃ t, exec .rdacc64 State.reset = .next t ∧ t.faultFlag ≠ State.reset.faultFlag) :=
  ⟨⟨_, rfl, by decide⟩, ⟨_, rfl, by decide⟩⟩

theorem witness_Mul32IsABijectionWithItsInverse : (0#32 : Word32) ≠ 0xFFFFFFFF#32 := by decide

theorem witness_Hex16IsTheDirectRendering : (0 : Nat) < 16 ∧ 15 < 16 := by decide

theorem witness_HexRenderingIsInjective :
    '0' ∈ hex8 0x0000000F#32 ∧ 'f' ∈ hex16 0#32 0x0000000F#32 ∧ hex8 0x0000000F#32 = hex8 0x0000000F#32 := by decide

theorem witness_DigestRendersWhatRdaccReads : (started 1#2).faultFlag = false ∧ (started 1#2).initFlag = true := by decide

theorem witness_HostReadsReturnTheLastWrite :
    (started 1#2).faultFlag = false ∧ (started 1#2).initFlag = true ∧
    (∃ t, exec .rdacc32 (started 1#2) = .next t) ∧ (∃ t, exec .rdacc64 (started 1#2) = .next t) ∧
    (∃ t, exec .digest32 (started 1#2) = .next t) ∧ (∃ t, exec .digest64 (started 1#2) = .next t) ∧
    (∃ t, exec (.init 2#2) State.reset = .next t) ∧ (2#2 : BitVec 2) ≠ 3#2 ∧ RegId.acc64Hi.hostReadable = false :=
  ⟨rfl, rfl, ⟨_, rfl⟩, ⟨_, rfl⟩, ⟨_, rfl⟩, ⟨_, rfl⟩, ⟨_, rfl⟩, by decide, rfl⟩

/-- Its other clauses: a word that faults, a command that writes none of the registers, and a block nothing has written. -/
theorem witness_HostReadsReturnTheLastWrite_kept :
    (∃ t, performWord 0x5000#16 (started 1#2) = .next t ∧ t.faultFlag = true) ∧
    (∃ t, exec (.absorb 0x61#8) (started 1#2) = .next t ∧ t.faultFlag = (started 1#2).faultFlag) ∧
    State.reset.resWritten = false ∧ State.reset.dlen = 0#5 :=
  ⟨⟨_, rfl, by decide⟩, ⟨_, rfl, by decide⟩, rfl, rfl⟩

/-- A block fresh from reset, and one that was used and then reset in all but its data registers. -/
theorem witness_OnlyInitSucceedsAfterReset :
    State.reset.faultFlag = false ∧ State.reset.initFlag = false ∧
    ({ started 1#2 with status := 0#32 } : State).faultFlag = false ∧
    ({ started 1#2 with status := 0#32 } : State).initFlag = false := by decide

theorem witness_AllButAbsorbAreIdempotent :
    (∀ b, Instr.digest32 ≠ .absorb b) ∧ ∃ t, exec .digest32 (started 1#2) = .next t :=
  ⟨by simp, _, rfl⟩

/-- Two states alike in STATUS and ACC32 that differ in the 64-bit accumulator. -/
theorem witness_TheTwoWidthsAreIndependent :
    (started 1#2).status = { started 1#2 with acc64Lo := 0#32 }.status ∧
    (started 1#2).acc32 = { started 1#2 with acc64Lo := 0#32 }.acc32 ∧
    (∃ t, exec (.absorb 0x61#8) (started 1#2) = .next t) ∧
    (∃ t, exec (.absorb 0x61#8) { started 1#2 with acc64Lo := 0#32 } = .next t) :=
  ⟨rfl, rfl, ⟨_, rfl⟩, ⟨_, rfl⟩⟩

/-- Two states alike in STATUS and the 64-bit accumulator that differ in ACC32. -/
theorem witness_TheTwoWidthsAreIndependent_width64 :
    (started 1#2).status = { started 1#2 with acc32 := 0#32 }.status ∧
    (started 1#2).acc64Hi = { started 1#2 with acc32 := 0#32 }.acc64Hi ∧
    (started 1#2).acc64Lo = { started 1#2 with acc32 := 0#32 }.acc64Lo ∧
    (∃ t, exec .rdacc64 (started 1#2) = .next t) ∧ (∃ t, exec .rdacc64 { started 1#2 with acc32 := 0#32 } = .next t) :=
  ⟨rfl, rfl, rfl, ⟨_, rfl⟩, ⟨_, rfl⟩⟩

/-- Two unfaulted starts with different histories. -/
theorem witness_ACallDependsOnItsOwnCommandsOnly :
    State.reset.faultFlag = false ∧ (started 2#2).faultFlag = false ∧ State.reset ≠ started 2#2 := by decide

theorem witness_DispatchComputesTheHash : (started 0#2).faultFlag = false := by decide
theorem witness_DispatchIsDeterministic : State.reset.faultFlag = false ∧ (started 1#2).faultFlag = false := by decide
theorem witness_DigestLengthIsFixedByTheWidth : State.reset.faultFlag = false := by decide
theorem witness_EmptyInputHashesToTheSeedsDigest : State.reset.faultFlag = false := by decide
theorem witness_SingleByteDigestsOfLetterA : State.reset.faultFlag = false := by decide
theorem witness_RevAndRevxAgreeOnZeroBytes : State.reset.faultFlag = false := by decide
theorem witness_OneSequenceServesBothWidths : State.reset.faultFlag = false := by decide

theorem witness_DispatchNeverFaultsUnlessItStartsFaulted :
    State.reset.faultFlag = false ∧ faulted.faultFlag = true := by decide

theorem witness_OrigIgnoresLeadingZeroBytes :
    State.reset.faultFlag = false ∧ ((1#2 : BitVec 2) = 1#2 ∨ (1#2 : BitVec 2) = 2#2) ∧
    ((2#2 : BitVec 2) = 1#2 ∨ (2#2 : BitVec 2) = 2#2) := by decide

/-- A readable buffer at MAX_LEN, a buffer whose last byte is unreadable, and a length one beyond MAX_LEN. -/
theorem witness_DispatchReadsTheBufferInOrder :
    (∀ n, (⟨some 2⟩ : HostParams).maxLen = some n → ([0x61#8, 0x62#8] : List Byte).length ≤ n) ∧
    (∀ i, i < ([0x61#8, 0x62#8] : List Byte).length →
      memRead [(5, 0x61#8), (6, 0x62#8)] (5 + i) = ([0x61#8, 0x62#8] : List Byte)[i]?) ∧
    (2 < 3 ∧ (∀ j, j < 2 → memRead [(5, 0x61#8), (6, 0x62#8)] (5 + j) ≠ none) ∧
      memRead [(5, 0x61#8), (6, 0x62#8)] (5 + 2) = none) ∧ (2 : Nat) < 3 := by
  refine ⟨fun n h => by cases h; decide, ?_, ⟨by decide, by decide, by decide⟩, by decide⟩
  decide

/-- Two instances, of which one steps. -/
theorem witness_InstancesShareNothing :
    (∃ t, System.stepUnit 1 ⟨[started 1#2, waiting State.reset 0x1001#16]⟩ = .next t) ∧ (0 : Nat) ≠ 1 ∧
    0 < ([started 1#2, waiting State.reset 0x1001#16]).length ∧ 1 < ([started 1#2, waiting State.reset 0x1001#16]).length :=
  ⟨⟨_, rfl⟩, by decide, by decide, by decide⟩

/-- A state that meets the invariant with a block initialised and a command waiting, and takes a step. -/
theorem witness_EveryStepKeepsTheInvariant :
    (waiting (started 1#2) 0x3000#16).Inv ∧ ∃ t, step (waiting (started 1#2) 0x3000#16) = .next t :=
  ⟨⟨by decide, by decide, by decide, by decide, fun h => absurd h (by decide), fun h => absurd h (by decide), by decide,
    fun h => absurd rfl h⟩, _, rfl⟩

end Sys2Proof.Tests
end

section
/-! PROOFS. The port (log entry 3): what a step does with its oldest entry, and that no command reads or writes it. -/

namespace Sys2Proof.Machine

/-! One step, by what stands at the head of the port (00_scope.md R18; 60_exceptions.md R183). -/

theorem step_of_port_nil {s : State} (h : s.port = []) : step s = .next s := by
  simp [step, h, idle]

theorem step_of_port_command {s : State} {w : CmdWord} {rest : List HostEvent}
    (h : s.port = .command w :: rest) : step s = performWord w { s with port := rest } := by
  simp [step, h, takeEvent]

/-! One command word, by the checks of 60_exceptions.md R174. -/

theorem performWord_of_fault {w : CmdWord} {s : State} (hf : s.faultFlag = true) :
    performWord w s = .next s := by
  simp [performWord, hf]

theorem performWord_of_decode_error {w : CmdWord} {s : State} {c : FaultCause} (hf : s.faultFlag = false)
    (hd : decode w = .error c) : performWord w s = .next (raiseFault c w s) := by
  simp [performWord, hf, hd]

theorem performWord_of_decode_ok {w : CmdWord} {s : State} {i : Instr} (hf : s.faultFlag = false)
    (hd : decode w = .ok i) : performWord w s = exec i s := by
  simp [performWord, hf, hd]

/-- Settles O6, from the rules of one step and of one command word. -/
theorem stepRunsTheDecodedCommand : Obligations.StepRunsTheDecodedCommand := by
  refine ⟨fun s w rest i hport hf hd => ?_, fun s => step_of_port_nil⟩
  calc step s
      = performWord w { s with port := rest } := step_of_port_command hport
    _ = exec i { s with port := rest } := performWord_of_decode_ok hf hd

/-! Whatever stands on the port, a command does the same and leaves the port as it is. -/

/-- An effect that neither reads nor writes the port. -/
def IgnoresPort (act : State → State) : Prop :=
  ∀ (s : State) (p : List HostEvent), act { s with port := p } = { act s with port := p }

theorem raiseFault_ignoresPort (c : FaultCause) (cmd : CmdWord) : IgnoresPort (raiseFault c cmd) :=
  fun _ _ => rfl

theorem effectOf_ignoresPort (i : Instr) : IgnoresPort (effectOf i) := by
  intro s p
  cases i with
  | init v =>
    simp only [effectOf]
    cases variantOfCode v with
    | none => rfl
    | some var => rfl
  | absorb b => rfl
  | digest32 => rfl
  | digest64 => rfl
  | rdacc32 => rfl
  | rdacc64 => rfl

theorem requireInit_ignoresPort (i : Instr) {act : State → State} (h : IgnoresPort act) :
    IgnoresPort (requireInit i act) := by
  intro s p
  cases hi : s.initFlag with
  | false =>
    rw [requireInit_of_noInit hi, requireInit_of_noInit (s := { s with port := p }) hi, raiseFault_ignoresPort]
  | true => rw [requireInit_of_init hi, requireInit_of_init (s := { s with port := p }) hi, h]

/-- Every command is an effect under the check of STATUS.FAULT, and that effect does not know the port. -/
theorem exec_eq_unlessFaulted (i : Instr) : ∃ act, IgnoresPort act ∧ exec i = unlessFaulted act := by
  by_cases hv : ∃ v, i = .init v
  · obtain ⟨v, rfl⟩ := hv
    exact ⟨effectOf (.init v), effectOf_ignoresPort _, funext (exec_init v)⟩
  · exact ⟨requireInit i (effectOf i), requireInit_ignoresPort i (effectOf_ignoresPort i),
      funext (exec_reader fun v e => hv ⟨v, e⟩)⟩

/-- The same of every command word, decodable or not. -/
theorem performWord_eq_unlessFaulted (w : CmdWord) : ∃ act, IgnoresPort act ∧ performWord w = unlessFaulted act := by
  have hfaulted (act : State → State) {s : State} (hf : s.faultFlag = true) :
      performWord w s = unlessFaulted act s := by rw [performWord_of_fault hf, unlessFaulted_of_fault hf]
  cases hd : decode w with
  | error c =>
    refine ⟨raiseFault c w, raiseFault_ignoresPort c w, funext fun s => ?_⟩
    cases hf : s.faultFlag with
    | false => rw [performWord_of_decode_error hf hd, unlessFaulted_of_noFault hf]
    | true => exact hfaulted _ hf
  | ok i =>
    obtain ⟨act, hact, hexec⟩ := exec_eq_unlessFaulted i
    refine ⟨act, hact, funext fun s => ?_⟩
    cases hf : s.faultFlag with
    | false => rw [performWord_of_decode_ok hf hd, hexec]
    | true => exact hfaulted _ hf

theorem unlessFaulted_setPort {act : State → State} (h : IgnoresPort act) (s : State) :
    ∃ t : State, ∀ p, unlessFaulted act { s with port := p } = .next { t with port := p } := by
  cases hf : s.faultFlag with
  | false => exact ⟨act s, fun p => by rw [unlessFaulted_of_noFault (s := { s with port := p }) hf, h]⟩
  | true => exact ⟨s, fun p => unlessFaulted_of_fault hf⟩

/-- A command word completes, with the same registers whatever stands on the port, and leaves the port as it is. -/
theorem performWord_setPort (w : CmdWord) (s : State) :
    ∃ t : State, ∀ p, performWord w { s with port := p } = .next { t with port := p } := by
  obtain ⟨act, hact, hw⟩ := performWord_eq_unlessFaulted w
  rw [hw]
  exact unlessFaulted_setPort hact s

/-! Runs of the machine and sequences of commands, one step and one command at a time. -/

theorem run_succ_of_next {s t : State} (k : Nat) (h : step s = .next t) :
    Host.Core.run Sys2Proof.core (k + 1) s = Host.Core.run Sys2Proof.core k t := by
  have hcore : Sys2Proof.core.step s = .next t := h
  simp only [Host.Core.run, hcore]

theorem issueAll_cons_of_next {w : CmdWord} {s t : State} (ws : List CmdWord) (h : performWord w s = .next t) :
    issueAll (w :: ws) s = issueAll ws t := by
  simp only [issueAll, h]

/-- Settles O35, by induction on the words: the first one leaves the same registers whether the other words stand on the
port behind it or not. -/
theorem issuingCommandsIsSteppingThePort : Obligations.IssuingCommandsIsSteppingThePort := by
  intro ws rest s
  induction ws generalizing s with
  | nil => rfl
  | cons w ws ih =>
    obtain ⟨t, ht⟩ := performWord_setPort w s
    have hstep : step { s with port := .command w :: (ws.map .command ++ rest) } =
        .next { t with port := ws.map .command ++ rest } :=
      (step_of_port_command rfl).trans (ht _)
    have hissue : issueAll (w :: ws) { s with port := rest } = issueAll ws { t with port := rest } :=
      issueAll_cons_of_next ws (ht rest)
    exact (run_succ_of_next _ hstep).trans ((ih t).trans hissue.symm)

end Sys2Proof.Machine
end

section
/-! PROOFS. The invariant of the block's registers (10_state.md R22, R24, R29): it holds after reset, every update a
command is made of keeps it, and so does every step. -/

namespace Sys2Proof.Machine

/-! The word of a command, decoded again (30_encoding.md R63, R65, R67). -/

/-- A command's word decodes to the command. -/
theorem decode_encode {i : Instr} (h : i.wellFormed = true) : decode (encode i) = .ok i := by
  cases i with
  | init v => revert v; decide
  | absorb b => clear h; revert b; decide
  | digest32 => decide
  | digest64 => decide
  | rdacc32 => decide
  | rdacc64 => decide

theorem decode_encode_reservedVariant : decode (encode (.init 3#2)) = .error .reservedVariant := by decide

/-- The commands that read an accumulator are all but INIT (60_exceptions.md R171). -/
theorem readsAccumulator_iff {i : Instr} : readsAccumulator i = true ↔ ∀ v, i ≠ .init v := by
  cases i <;> simp [readsAccumulator]

theorem wellFormed_of_readsAccumulator {i : Instr} (h : readsAccumulator i = true) : i.wellFormed = true := by
  cases i with
  | init v => cases h
  | absorb b => rfl
  | digest32 => rfl
  | digest64 => rfl
  | rdacc32 => rfl
  | rdacc64 => rfl

/-! Which faults leave a sound record (60_exceptions.md R171, R172). -/

theorem raiseFault_recordSound_of_decode_error {c : FaultCause} {cmd : CmdWord} (s : State)
    (hd : decode cmd = .error c) : (raiseFault c cmd s).faultRecordSound :=
  .inl ⟨c, hd, raiseFault_cause s c cmd⟩

theorem raiseFault_recordSound_of_noInit {i : Instr} {s : State} (hi : readsAccumulator i = true)
    (hinit : s.initFlag = false) : (raiseFault .notInitialised (encode i) s).faultRecordSound :=
  .inr ⟨(raiseFault_initFlag s _ _).trans hinit, raiseFault_cause s _ _, i,
    decode_encode (wellFormed_of_readsAccumulator hi), hi⟩

/-! The digest's characters (00_scope.md R14; 43_hex_encoder.md R130, R131). -/

theorem isHexCode_charCode_hexchar (n : BitVec 4) : isHexCode (charCode (hexchar n)) = true := by
  revert n
  decide

theorem isHexCode_of_mem_hex8 {w : Word32} {b : Byte} (h : b ∈ (hex8 w).map charCode) : isHexCode b = true := by
  simp only [hex8, List.map_map, List.mem_map] at h
  obtain ⟨i, -, rfl⟩ := h
  exact isHexCode_charCode_hexchar _

theorem isHexCode_of_mem_hex16 {hi lo : Word32} {b : Byte} (h : b ∈ (hex16 hi lo).map charCode) :
    isHexCode b = true := by
  rw [hex16, List.map_append, List.mem_append] at h
  exact h.elim isHexCode_of_mem_hex8 isHexCode_of_mem_hex8

/-! The invariant after each update (Machine/Ops.lean). -/

variable {s t : State}

/-- Settles O48: every field of the reset state is a fixed value (70_reset_and_hazards.md R190). -/
theorem invariantHoldsAfterReset : Obligations.InvariantHoldsAfterReset where
  reserved_zero := by decide
  cause_legal := by decide
  var_legal := by decide
  no_fault_no_record _ := ⟨reset_cause, reset_fcmd⟩
  fault_record hf := absurd hf (by decide)
  before_init _ := ⟨reset_var, reset_dlen, reset_resWritten⟩
  dlen_legal := .inl reset_dlen
  dout_digest hd := absurd reset_dlen hd

theorem setPort_inv (h : s.Inv) (p : List HostEvent) : ({ s with port := p } : State).Inv :=
  { h with }

theorem takeReset_inv (s : State) : (takeReset s).Inv :=
  setPort_inv invariantHoldsAfterReset s.port

theorem causeCode_le_four (c : FaultCause) : (causeCode c).toNat ≤ 4 := by
  cases c <;> decide

theorem raiseFault_inv {c : FaultCause} {cmd : CmdWord} (h : s.Inv)
    (hr : (raiseFault c cmd s).faultRecordSound) : (raiseFault c cmd s).Inv where
  reserved_zero := by simp [h.reserved_zero]
  cause_legal := by simp [causeCode_le_four]
  var_legal := by simp [h.var_legal]
  no_fault_no_record hf := by simp at hf
  fault_record _ := hr
  before_init := by simpa using h.before_init
  dlen_legal := h.dlen_legal
  dout_digest := h.dout_digest

theorem writeAccumulators_inv (h : s.Inv) (a hi lo : Word32) : (writeAccumulators a hi lo s).Inv :=
  { h with }

/-- INIT's update of STATUS: without a fault, since a recorded fault may rest on INIT being 0. -/
theorem selectVariant_inv {v : BitVec 2} (h : s.Inv) (hf : s.faultFlag = false) (hv : v ≠ 3#2) :
    (selectVariant v s).Inv where
  reserved_zero := by simp [h.reserved_zero]
  cause_legal := by simpa using h.cause_legal
  var_legal := by simp [hv]
  no_fault_no_record := by simpa using h.no_fault_no_record
  fault_record hf' := by simp [hf] at hf'
  before_init hi := by simp at hi
  dlen_legal := h.dlen_legal
  dout_digest := h.dout_digest

theorem writeRes_inv (h : s.Inv) (hinit : s.initFlag = true) (v : Word64) : (writeRes v s).Inv :=
  { h with before_init := fun hi => absurd hinit (by simpa using hi) }

/-- A DIGEST's update: `len` hex codes, and 0x00 behind them. -/
theorem writeDigest_inv {codes : List Byte} {len : BitVec 5} (h : s.Inv) (hinit : s.initFlag = true)
    (hlen : len = 8#5 ∨ len = 16#5) (hcount : codes.length = len.toNat)
    (hhex : ∀ b ∈ codes, isHexCode b = true) : (writeDigest codes len s).Inv :=
  { h with
    before_init := fun hi => absurd hinit (by simpa using hi)
    dlen_legal := .inr hlen
    dout_digest := fun _ i => by
      by_cases hi : i.val < codes.length
      · simp [← hcount, hi, hhex]
      · simp [← hcount, hi] }

/-! The invariant after a command, a command word and a step. -/

/-- A command's effect, where the block is unfaulted and, but for INIT, initialised. -/
theorem effectOf_inv {i : Instr} (h : s.Inv) (hf : s.faultFlag = false)
    (hi : s.initFlag = true ∨ ∃ v, i = .init v) : (effectOf i s).Inv := by
  have hinit (hr : readsAccumulator i = true) : s.initFlag = true :=
    hi.resolve_right fun ⟨v, e⟩ => readsAccumulator_iff.mp hr v e
  cases i with
  | init v =>
    cases hv : variantOfCode v with
    | none =>
      obtain rfl := (variantOfCode_eq_none_iff v).mp hv
      exact raiseFault_inv h (raiseFault_recordSound_of_decode_error s decode_encode_reservedVariant)
    | some var =>
      simp only [effectOf, hv]
      exact selectVariant_inv (writeAccumulators_inv h _ _ _) hf (variantCode_ne_three var)
  | absorb b => exact writeAccumulators_inv h _ _ _
  | digest32 => exact writeDigest_inv h (hinit rfl) (.inl rfl) (by simp) fun _ => isHexCode_of_mem_hex8
  | digest64 => exact writeDigest_inv h (hinit rfl) (.inr rfl) (by simp) fun _ => isHexCode_of_mem_hex16
  | rdacc32 => exact writeRes_inv h (hinit rfl) _
  | rdacc64 => exact writeRes_inv h (hinit rfl) _

theorem exec_inv {i : Instr} (h : s.Inv) (ht : exec i s = .next t) : t.Inv := by
  obtain ⟨-, rfl⟩ | ⟨-, hinit, hr, rfl⟩ | ⟨hf, hi, rfl⟩ := exec_cases ht
  · exact h
  · exact raiseFault_inv h (raiseFault_recordSound_of_noInit (readsAccumulator_iff.mpr hr) hinit)
  · exact effectOf_inv h hf hi

theorem performWord_inv {cmd : CmdWord} (h : s.Inv) (ht : performWord cmd s = .next t) : t.Inv := by
  obtain ⟨-, rfl⟩ | ⟨-, c, hd, rfl⟩ | ⟨-, i, -, hexec⟩ := performWord_cases ht
  · exact h
  · exact raiseFault_inv h (raiseFault_recordSound_of_decode_error s hd)
  · exact exec_inv h hexec

/-- Settles O49, by what a step can do: nothing, a command word, or a reset. -/
theorem everyStepKeepsTheInvariant : Obligations.EveryStepKeepsTheInvariant := by
  intro s t h hstep
  obtain ⟨-, rfl⟩ | ⟨cmd, rest, -, hword⟩ | ⟨e, rest, -, -, rfl⟩ := step_cases hstep
  · exact h
  · exact performWord_inv (setPort_inv h rest) hword
  · exact takeReset_inv _

end Sys2Proof.Machine
end

section
/-! PROOFS. What a command leaves as it was (10_state.md R20, column "written by"; 60_exceptions.md R172), and that
neither accumulator has a say in the other (R32). -/

namespace Sys2Proof.Machine

/-! The frame of an effect that is no fault, register by register. -/

/-- INIT of a command's variant code starts a call of that variant. -/
theorem effectOf_init_wellFormed {v : BitVec 2} (h : (Instr.init v).wellFormed = true) (s : State) :
    ∃ var, variantCode var = v ∧ effectOf (.init v) s = startCall var s := by
  cases hv : variantOfCode v with
  | none =>
    obtain rfl := (variantOfCode_eq_none_iff v).mp hv
    cases h
  | some var => exact ⟨var, variantCode_of_variantOfCode hv, by simp [effectOf, hv]⟩

/-- INIT of the reserved code is a fault, whatever the state (30_encoding.md R67). -/
theorem effectOf_not_wellFormed {i : Instr} (h : i.wellFormed = false) (s : State) :
    effectOf i s = raiseFault .reservedVariant (encode i) s := by
  cases i with
  | init v =>
    obtain rfl : v = 3#2 := by simpa [Instr.wellFormed] using h
    rfl
  | absorb b => cases h
  | digest32 => cases h
  | digest64 => cases h
  | rdacc32 => cases h
  | rdacc64 => cases h

/-- Everything a command can do, its faults told from what it does well: nothing, a fault, or the effect of a well-formed
command. -/
theorem exec_cases_fault_apart {i : Instr} {s t : State} (h : exec i s = .next t) :
    t = s ∨ (s.faultFlag = false ∧ ∃ c, t = raiseFault c (encode i) s) ∨
      (s.faultFlag = false ∧ i.wellFormed = true ∧ t = effectOf i s) := by
  obtain ⟨-, ht⟩ | ⟨hf, -, -, ht⟩ | ⟨hf, -, ht⟩ := exec_cases h
  · exact .inl ht
  · exact .inr (.inl ⟨hf, _, ht⟩)
  · cases hw : i.wellFormed with
    | false => exact .inr (.inl ⟨hf, _, ht.trans (effectOf_not_wellFormed hw s)⟩)
    | true => exact .inr (.inr ⟨hf, rfl, ht⟩)

/-- The frame of a command that runs without a fault: each register but the ones the command writes. -/
structure RunFrame (i : Instr) (s t : State) : Prop where
  port : t.port = s.port
  fcmd : t.fcmd = s.fcmd
  faultFlag : t.faultFlag = s.faultFlag
  cause : t.cause = s.cause
  reserved : statusReserved t.status = statusReserved s.status
  status : (∀ v, i ≠ .init v) → t.status = s.status
  accumulators : (∀ v, i ≠ .init v) → (∀ b, i ≠ .absorb b) →
    t.acc32 = s.acc32 ∧ t.acc64Lo = s.acc64Lo ∧ t.acc64Hi = s.acc64Hi
  digest : i ≠ .digest32 → i ≠ .digest64 → t.dout = s.dout ∧ t.dlen = s.dlen
  res : i ≠ .rdacc32 → i ≠ .rdacc64 → t.res = s.res ∧ t.resWritten = s.resWritten

theorem runFrame_refl (i : Instr) (s : State) : RunFrame i s s := by
  constructor <;> simp

theorem startCall_runFrame (v : BitVec 2) (var : Variant) (s : State) : RunFrame (.init v) s (startCall var s) := by
  constructor <;> simp [startCall, State.cause]

theorem absorbByte_runFrame (b : Byte) (s : State) : RunFrame (.absorb b) s (absorbByte b s) := by
  constructor <;> simp [absorbByte]

theorem effectOf_runFrame {i : Instr} (h : i.wellFormed = true) (s : State) : RunFrame i s (effectOf i s) := by
  cases i with
  | init v =>
    obtain ⟨var, -, heq⟩ := effectOf_init_wellFormed h s
    exact heq ▸ startCall_runFrame v var s
  | absorb b => exact absorbByte_runFrame b s
  | digest32 => constructor <;> simp [effectOf]
  | digest64 => constructor <;> simp [effectOf]
  | rdacc32 => constructor <;> simp [effectOf]
  | rdacc64 => constructor <;> simp [effectOf]

/-- A command either runs, within its frame, or raises a fault. -/
theorem exec_runFrame_or_fault {i : Instr} {s t : State} (h : exec i s = .next t) :
    RunFrame i s t ∨ (s.faultFlag = false ∧ ∃ c, t = raiseFault c (encode i) s) := by
  obtain rfl | hfault | ⟨-, hw, rfl⟩ := exec_cases_fault_apart h
  · exact .inl (runFrame_refl i _)
  · exact .inr hfault
  · exact .inl (effectOf_runFrame hw s)

/-- Settles O20: where a command runs, its frame says each clause; where it faults, the fault action's own frame does. -/
theorem frameOfEveryCommand : Obligations.FrameOfEveryCommand := by
  intro i s t h
  obtain hrun | ⟨hf, c, rfl⟩ := exec_runFrame_or_fault h
  · exact ⟨hrun.port, hrun.accumulators, hrun.digest, hrun.res, fun _ => ⟨hrun.fcmd, hrun.cause⟩, fun _ => hrun.status,
      fun hne => absurd hrun.faultFlag hne, hrun.reserved⟩
  · simp [hf]

/-! Effects under which the two widths stay apart (R32). -/

/-- From two states alike in STATUS, an effect leaves them alike in STATUS, and in each width's accumulator in which they
were alike. -/
def KeepsWidthsApart (act : State → State) : Prop :=
  ∀ s s' : State, s.status = s'.status →
    (act s).status = (act s').status ∧
    (s.acc32 = s'.acc32 → (act s).acc32 = (act s').acc32) ∧
    (s.acc64Hi = s'.acc64Hi → s.acc64Lo = s'.acc64Lo →
      (act s).acc64Hi = (act s').acc64Hi ∧ (act s).acc64Lo = (act s').acc64Lo)

theorem raiseFault_keepsWidthsApart (c : FaultCause) (cmd : CmdWord) : KeepsWidthsApart (raiseFault c cmd) :=
  fun _ _ hst => ⟨congrArg (fun st => setCause (setFault st) (causeCode c)) hst, id, And.intro⟩

theorem startCall_keepsWidthsApart (v : Variant) : KeepsWidthsApart (startCall v) := by
  intro s s' hst
  simp [startCall, hst]

/-- Each core's step reads VAR and its own accumulator (42_variant_policy.md R115). -/
theorem absorbByte_keepsWidthsApart (b : Byte) : KeepsWidthsApart (absorbByte b) := by
  intro s s' hst
  have hvar : s.var = s'.var := congrArg statusVar hst
  simp +contextual [absorbByte, hst, hvar]

/-- The commands that only write an output register leave STATUS and the accumulators. -/
theorem output_keepsWidthsApart {i : Instr} (hi : readsAccumulator i = true) (ha : ∀ b, i ≠ .absorb b) :
    KeepsWidthsApart (effectOf i) := by
  intro s s' hst
  have hreader := readsAccumulator_iff.mp hi
  have hframe := effectOf_runFrame (wellFormed_of_readsAccumulator hi)
  obtain ⟨h32, hlo, hhi⟩ := (hframe s).accumulators hreader ha
  obtain ⟨h32', hlo', hhi'⟩ := (hframe s').accumulators hreader ha
  rw [(hframe s).status hreader, (hframe s').status hreader, h32, hlo, hhi, h32', hlo', hhi']
  exact ⟨hst, id, And.intro⟩

theorem effectOf_keepsWidthsApart (i : Instr) : KeepsWidthsApart (effectOf i) := by
  intro s s' hst
  cases i with
  | init v =>
    cases hv : variantOfCode v with
    | none => simpa [effectOf, hv] using raiseFault_keepsWidthsApart .reservedVariant (encode (.init v)) s s' hst
    | some var => simpa [effectOf, hv] using startCall_keepsWidthsApart var s s' hst
  | absorb b => exact absorbByte_keepsWidthsApart b s s' hst
  | digest32 => exact output_keepsWidthsApart rfl (by simp) s s' hst
  | digest64 => exact output_keepsWidthsApart rfl (by simp) s s' hst
  | rdacc32 => exact output_keepsWidthsApart rfl (by simp) s s' hst
  | rdacc64 => exact output_keepsWidthsApart rfl (by simp) s s' hst

theorem requireInit_keepsWidthsApart (i : Instr) {act : State → State} (h : KeepsWidthsApart act) :
    KeepsWidthsApart (requireInit i act) := by
  intro s s' hst
  have hinit : s.initFlag = s'.initFlag := congrArg statusInit hst
  cases hi : s.initFlag with
  | false =>
    rw [requireInit_of_noInit hi, requireInit_of_noInit (hinit ▸ hi)]
    exact raiseFault_keepsWidthsApart _ _ s s' hst
  | true =>
    rw [requireInit_of_init hi, requireInit_of_init (hinit ▸ hi)]
    exact h s s' hst

/-- The check of STATUS.FAULT goes the same way in two states alike in STATUS. -/
theorem unlessFaulted_cases_of_status_eq {act : State → State} {s s' t t' : State} (hst : s.status = s'.status)
    (h : unlessFaulted act s = .next t) (h' : unlessFaulted act s' = .next t') :
    (t = s ∧ t' = s') ∨ (t = act s ∧ t' = act s') := by
  have hfault : s.faultFlag = s'.faultFlag := congrArg statusFault hst
  obtain ⟨hf, ht⟩ | ⟨hf, ht⟩ := unlessFaulted_cases h
  · rw [unlessFaulted_of_fault (hfault ▸ hf)] at h'
    exact .inl ⟨ht, (Host.Outcome.next.inj h').symm⟩
  · rw [unlessFaulted_of_noFault (hfault ▸ hf)] at h'
    exact .inr ⟨ht, (Host.Outcome.next.inj h').symm⟩

/-- Every command is, under the check of STATUS.FAULT, an effect that keeps the widths apart. -/
theorem exec_eq_unlessFaulted_keepsWidthsApart (i : Instr) :
    ∃ act, KeepsWidthsApart act ∧ exec i = unlessFaulted act := by
  by_cases hv : ∃ v, i = .init v
  · obtain ⟨v, rfl⟩ := hv
    exact ⟨_, effectOf_keepsWidthsApart _, funext (exec_init v)⟩
  · exact ⟨_, requireInit_keepsWidthsApart i (effectOf_keepsWidthsApart i), funext (exec_reader fun v e => hv ⟨v, e⟩)⟩

/-- Settles O33: both states pass the same check of FAULT, and what a command then does keeps the widths apart. -/
theorem theTwoWidthsAreIndependent : Obligations.TheTwoWidthsAreIndependent := by
  intro i s s' t t' hst h h'
  obtain ⟨act, hact, hexec⟩ := exec_eq_unlessFaulted_keepsWidthsApart i
  rw [hexec] at h h'
  obtain ⟨rfl, rfl⟩ | ⟨rfl, rfl⟩ := unlessFaulted_cases_of_status_eq hst h h'
  · exact ⟨hst, id, And.intro⟩
  · exact hact s s' hst

end Sys2Proof.Machine
end

section
/-! PROOFS. A call, from its INIT to its last command (00_scope.md R15; 10_state.md R37; 44_dispatch.md R151): the state
it leaves, and that the accumulators in it are a function of the variant and the bytes alone. -/

namespace Sys2Proof.Machine

/-! The words of a call, one by one. -/

theorem issueAll_append_of_next {ws : List CmdWord} {s t : State} (ws' : List CmdWord)
    (h : issueAll ws s = .next t) : issueAll (ws ++ ws') s = issueAll ws' t := by
  induction ws generalizing s with
  | nil => exact congrArg (issueAll ws') (Host.Outcome.next.inj h)
  | cons w ws ih =>
    rw [List.cons_append]
    cases hw : performWord w s with
    | next u =>
      rw [issueAll_cons_of_next _ hw] at h ⊢
      exact ih h
    | fault f => simp [issueAll, hw] at h
    | refused r => simp [issueAll, hw] at h

theorem performWord_encode_init {s : State} (hf : s.faultFlag = false) (v : Variant) :
    performWord (encode (.init (variantCode v))) s = .next (startCall v s) := by
  have hwf : (Instr.init (variantCode v)).wellFormed = true := by simp [Instr.wellFormed]
  rw [performWord_of_decode_ok hf (decode_encode hwf), exec_init, unlessFaulted_of_noFault hf]
  simp [effectOf]

theorem performWord_encode_reader {i : Instr} (hi : readsAccumulator i = true) {s : State}
    (hf : s.faultFlag = false) (hinit : s.initFlag = true) :
    performWord (encode i) s = .next (effectOf i s) := by
  rw [performWord_of_decode_ok hf (decode_encode (wellFormed_of_readsAccumulator hi)),
    exec_reader (readsAccumulator_iff.mp hi), unlessFaulted_of_noFault hf, requireInit_of_init hinit]

/-! The ABSORBs of a call (42_variant_policy.md R115). -/

/-- The state after one ABSORB per byte, in order. -/
def absorbAll (bytes : List Byte) (s : State) : State := bytes.foldl (fun u b => absorbByte b u) s

@[simp] theorem absorbAll_nil (s : State) : absorbAll [] s = s := rfl

@[simp] theorem absorbAll_cons (b : Byte) (bytes : List Byte) (s : State) :
    absorbAll (b :: bytes) s = absorbAll bytes (absorbByte b s) := rfl

@[simp] theorem absorbAll_status (bytes : List Byte) (s : State) : (absorbAll bytes s).status = s.status := by
  induction bytes generalizing s with
  | nil => rfl
  | cons b bytes ih => exact ih _

@[simp] theorem absorbAll_faultFlag (bytes : List Byte) (s : State) : (absorbAll bytes s).faultFlag = s.faultFlag :=
  congrArg statusFault (absorbAll_status bytes s)

@[simp] theorem absorbAll_initFlag (bytes : List Byte) (s : State) : (absorbAll bytes s).initFlag = s.initFlag :=
  congrArg statusInit (absorbAll_status bytes s)

theorem issueAll_absorbWords {s : State} (hf : s.faultFlag = false) (hinit : s.initFlag = true) (bytes : List Byte) :
    issueAll (absorbWords bytes) s = .next (absorbAll bytes s) := by
  induction bytes generalizing s with
  | nil => rfl
  | cons b bytes ih =>
    exact (issueAll_cons_of_next _ (performWord_encode_reader rfl hf hinit)).trans (ih hf hinit)

/-- The ABSORBs leave in ACC32 the fold of the bytes (40_width32_core.md R85). -/
theorem absorbAll_acc32 (bytes : List Byte) (s : State) :
    (absorbAll bytes s).acc32 = fold32 (ordering s.var) s.acc32 bytes := by
  induction bytes generalizing s with
  | nil => rfl
  | cons b bytes ih => exact ih _

/-- The fold of a byte sequence on the dual word: `fold64` (41_width64_core.md R97), each step by `step64dw`. -/
def foldDualWord (ord : StepOrder) (acc : Word32 × Word32) (bytes : List Byte) : Word32 × Word32 :=
  bytes.foldl (fun p b => step64dw ord p.1 p.2 b) acc

/-- The ABSORBs leave in ACC64_HI and ACC64_LO the fold of the bytes. -/
theorem absorbAll_acc64HiLo (bytes : List Byte) (s : State) :
    ((absorbAll bytes s).acc64Hi, (absorbAll bytes s).acc64Lo) =
      foldDualWord (ordering s.var) (s.acc64Hi, s.acc64Lo) bytes := by
  induction bytes generalizing s with
  | nil => rfl
  | cons b bytes ih => exact ih _

/-! A whole call. -/

/-- The state after INIT and the ABSORBs. -/
def absorbedCall (v : Variant) (bytes : List Byte) (s : State) : State := absorbAll bytes (startCall v s)

@[simp] theorem absorbedCall_faultFlag (v : Variant) (bytes : List Byte) (s : State) :
    (absorbedCall v bytes s).faultFlag = s.faultFlag := by
  simp [absorbedCall]

@[simp] theorem absorbedCall_initFlag (v : Variant) (bytes : List Byte) (s : State) :
    (absorbedCall v bytes s).initFlag = true := by
  simp [absorbedCall]

/-- A call's ACC32: a function of the variant and the bytes. -/
theorem absorbedCall_acc32 (v : Variant) (bytes : List Byte) (s : State) :
    (absorbedCall v bytes s).acc32 = fold32 (ordering (variantCode v)) (seed32 v) bytes := by
  simp [absorbedCall, absorbAll_acc32]

/-- A call's ACC64_HI and ACC64_LO: a function of the variant and the bytes. -/
theorem absorbedCall_acc64HiLo (v : Variant) (bytes : List Byte) (s : State) :
    ((absorbedCall v bytes s).acc64Hi, (absorbedCall v bytes s).acc64Lo) =
      foldDualWord (ordering (variantCode v)) (highWord (seed64 v), lowWord (seed64 v)) bytes := by
  rw [absorbedCall, absorbAll_acc64HiLo, startCall_var]
  rfl

/-- From every unfaulted state, INIT, the ABSORBs and a last command that reads an accumulator run: they leave that
command's effect on the call's accumulators. -/
theorem issueAll_call {i : Instr} (hi : readsAccumulator i = true) {s : State} (hf : s.faultFlag = false)
    (v : Variant) (bytes : List Byte) :
    issueAll (encode (.init (variantCode v)) :: absorbWords bytes ++ [encode i]) s =
      .next (effectOf i (absorbedCall v bytes s)) := by
  have habsorbs : issueAll (encode (.init (variantCode v)) :: absorbWords bytes) s =
      .next (absorbedCall v bytes s) := by
    rw [issueAll_cons_of_next _ (performWord_encode_init hf v)]
    exact issueAll_absorbWords (by simpa using hf) (startCall_initFlag v s) bytes
  have hlast : performWord (encode i) (absorbedCall v bytes s) = .next (effectOf i (absorbedCall v bytes s)) :=
    performWord_encode_reader hi (by simpa using hf) (absorbedCall_initFlag v bytes s)
  rw [issueAll_append_of_next _ habsorbs, issueAll_cons_of_next _ hlast]
  rfl

/-! What the last command of a call leaves: its flags, and its output (R37). -/

theorem effectOf_reader_faultFlag {i : Instr} (hi : readsAccumulator i = true) (s : State) :
    (effectOf i s).faultFlag = s.faultFlag :=
  (effectOf_runFrame (wellFormed_of_readsAccumulator hi) s).faultFlag

theorem effectOf_call_faultFlag {i : Instr} (hi : readsAccumulator i = true) {s : State} (hf : s.faultFlag = false)
    (v : Variant) (bytes : List Byte) : (effectOf i (absorbedCall v bytes s)).faultFlag = false := by
  rw [effectOf_reader_faultFlag hi, absorbedCall_faultFlag, hf]

theorem readsAccumulator_digestInstr (w : Width) : readsAccumulator (digestInstr w) = true := by cases w <;> rfl

theorem readsAccumulator_rdaccInstr (w : Width) : readsAccumulator (rdaccInstr w) = true := by cases w <;> rfl

/-- Two calls of one variant on one byte sequence have the same three accumulators, whatever went before them. -/
theorem absorbedCall_accumulators_eq (v : Variant) (bytes : List Byte) (s s' : State) :
    (absorbedCall v bytes s).acc32 = (absorbedCall v bytes s').acc32 ∧
    (absorbedCall v bytes s).acc64Hi = (absorbedCall v bytes s').acc64Hi ∧
    (absorbedCall v bytes s).acc64Lo = (absorbedCall v bytes s').acc64Lo := by
  refine ⟨?_, Prod.mk.inj ?_⟩
  · rw [absorbedCall_acc32, absorbedCall_acc32]
  · rw [absorbedCall_acc64HiLo, absorbedCall_acc64HiLo]

/-- RES after RDACC is a function of the accumulators. -/
theorem effectOf_rdaccInstr_res_congr (w : Width) {s s' : State} (h32 : s.acc32 = s'.acc32)
    (hhi : s.acc64Hi = s'.acc64Hi) (hlo : s.acc64Lo = s'.acc64Lo) :
    (effectOf (rdaccInstr w) s).res = (effectOf (rdaccInstr w) s').res := by
  cases w with
  | w32 => simp [rdaccInstr, effectOf, h32]
  | w64 => simp [rdaccInstr, effectOf, State.acc64, hhi, hlo]

/-- DOUT and DLEN after DIGEST are a function of the accumulators. -/
theorem effectOf_digestInstr_congr (w : Width) {s s' : State} (h32 : s.acc32 = s'.acc32)
    (hhi : s.acc64Hi = s'.acc64Hi) (hlo : s.acc64Lo = s'.acc64Lo) :
    (effectOf (digestInstr w) s).dout = (effectOf (digestInstr w) s').dout ∧
    (effectOf (digestInstr w) s).dlen = (effectOf (digestInstr w) s').dlen := by
  cases w with
  | w32 => simp [digestInstr, effectOf, h32]
  | w64 => simp [digestInstr, effectOf, hhi, hlo]

/-- Settles O34: each call leaves its last command's effect on accumulators that are the same in both. -/
theorem aCallDependsOnItsOwnCommandsOnly : Obligations.ACallDependsOnItsOwnCommandsOnly := by
  intro v w bytes s s' hf hf'
  obtain ⟨h32, hhi, hlo⟩ := absorbedCall_accumulators_eq v bytes s s'
  have hrd := readsAccumulator_rdaccInstr w
  have hdg := readsAccumulator_digestInstr w
  obtain ⟨hdout, hdlen⟩ := effectOf_digestInstr_congr w h32 hhi hlo
  exact ⟨⟨_, _, issueAll_call hrd hf v bytes, issueAll_call hrd hf' v bytes, effectOf_rdaccInstr_res_congr w h32 hhi hlo,
      effectOf_call_faultFlag hrd hf v bytes, effectOf_call_faultFlag hrd hf' v bytes⟩,
    ⟨_, _, issueAll_call hdg hf v bytes, issueAll_call hdg hf' v bytes, hdout, hdlen,
      effectOf_call_faultFlag hdg hf v bytes, effectOf_call_faultFlag hdg hf' v bytes⟩⟩

end Sys2Proof.Machine
end

section
/-! PROOFS. A system of instances (60_exceptions.md R181): what stepping one of them does to the list of all. -/

namespace Sys2Proof.Machine

/-- Every step completes: it is idle, a command word, or a reset. -/
theorem step_completes (s : State) : ∃ t, step s = .next t := by
  cases hp : s.port with
  | nil => exact ⟨s, step_of_port_nil hp⟩
  | cons e rest =>
    cases e with
    | command w =>
      obtain ⟨t, ht⟩ := performWord_setPort w s
      exact ⟨_, (step_of_port_command hp).trans (ht rest)⟩
    | reset => exact ⟨takeReset { s with port := rest }, by simp [step, hp, takeEvent]⟩
    | resetDuring w => exact ⟨takeReset { s with port := rest }, by simp [step, hp, takeEvent]⟩

section
variable {sys : System} {k : Nat}

theorem stepUnit_of_step {s t : State} (hs : sys.units[k]? = some s) (hstep : step s = .next t) :
    sys.stepUnit k = .next ⟨sys.units.set k t⟩ := by
  simp [System.stepUnit, hs, hstep]

/-- Everything `stepUnit k` can do: entry `k` is there, and its own step replaces it. -/
theorem stepUnit_cases {sys' : System} (h : sys.stepUnit k = .next sys') :
    ∃ s t, sys.units[k]? = some s ∧ step s = .next t ∧ sys' = ⟨sys.units.set k t⟩ := by
  cases hs : sys.units[k]? with
  | none => simp [System.stepUnit, hs] at h
  | some s =>
    obtain ⟨t, hstep⟩ := step_completes s
    rw [stepUnit_of_step hs hstep] at h
    exact ⟨s, t, rfl, hstep, (Host.Outcome.next.inj h).symm⟩

/-- Two different instances stepped one after the other: each as its own step leaves it. -/
theorem runOrder_pair {j : Nat} {s s' t t' : State} (hjk : j ≠ k) (hj : sys.units[j]? = some s)
    (hk : sys.units[k]? = some s') (hstep : step s = .next t) (hstep' : step s' = .next t') :
    System.runOrder [j, k] sys = .next ⟨(sys.units.set j t).set k t'⟩ := by
  have hfirst := stepUnit_of_step hj hstep
  have hsecond : System.stepUnit k ⟨sys.units.set j t⟩ = .next ⟨(sys.units.set j t).set k t'⟩ :=
    stepUnit_of_step ((List.getElem?_set_ne hjk).trans hk) hstep'
  simp only [System.runOrder, hfirst, hsecond]

end

/-- Settles O47: a step sets one entry of the list of instances, and setting two different entries commutes. -/
theorem instancesShareNothing : Obligations.InstancesShareNothing := by
  refine ⟨fun sys sys' k h => ?_, fun sys j k hjk hj hk => ?_⟩
  · obtain ⟨s, t, hs, hstep, rfl⟩ := stepUnit_cases h
    have hk : k < sys.units.length := (List.getElem?_eq_some_iff.mp hs).1
    exact ⟨List.length_set, fun j hj => List.getElem?_set_ne hj.symm,
      s, t, hs, hstep, List.getElem?_set_self hk⟩
  · obtain ⟨t, ht⟩ := step_completes sys.units[j]
    obtain ⟨t', ht'⟩ := step_completes sys.units[k]
    have hsj := List.getElem?_eq_getElem hj
    have hsk := List.getElem?_eq_getElem hk
    rw [runOrder_pair hjk hsj hsk ht ht', runOrder_pair hjk.symm hsk hsj ht' ht, List.set_comm _ _ hjk]

end Sys2Proof.Machine
end

section
/-! PROOFS. Reading a buffer from host memory (20_memory.md R40, R41, R43), and a dispatch operation on it. -/

namespace Sys2Proof.Machine

section
variable {m : HostMemory}

theorem readBuffer_succ_of_none {buf : Nat} (len : Nat) (h : memRead m buf = none) :
    readBuffer m buf (len + 1) = .error buf := by
  simp [readBuffer, h]

theorem readBuffer_succ_of_ok {buf len : Nat} {b : Byte} {bytes : List Byte} (hb : memRead m buf = some b)
    (hrest : readBuffer m (buf + 1) len = .ok bytes) : readBuffer m buf (len + 1) = .ok (b :: bytes) := by
  simp [readBuffer, hb, hrest]

theorem readBuffer_succ_of_error {buf len addr : Nat} {b : Byte} (hb : memRead m buf = some b)
    (hrest : readBuffer m (buf + 1) len = .error addr) : readBuffer m buf (len + 1) = .error addr := by
  simp [readBuffer, hb, hrest]

/-- A buffer every address of which is readable is read in ascending order. -/
theorem readBuffer_of_readable {buf : Nat} {bytes : List Byte}
    (h : ∀ i, i < bytes.length → memRead m (buf + i) = bytes[i]?) :
    readBuffer m buf bytes.length = .ok bytes := by
  induction bytes generalizing buf with
  | nil => rfl
  | cons b bytes ih =>
    have htail (i : Nat) (hi : i < bytes.length) : memRead m (buf + 1 + i) = bytes[i]? := by
      rw [Nat.add_assoc, Nat.add_comm 1 i]
      simpa using h (i + 1) (by simpa using hi)
    exact readBuffer_succ_of_ok (by simpa using h 0 (by simp)) (ih htail)

/-- A buffer is unreadable at the first of its addresses that is. -/
theorem readBuffer_of_unreadable {buf len i : Nat} (hi : i < len) (hbefore : ∀ j, j < i → memRead m (buf + j) ≠ none)
    (hat : memRead m (buf + i) = none) : readBuffer m buf len = .error (buf + i) := by
  induction i generalizing buf len with
  | zero =>
    obtain ⟨len, rfl⟩ := Nat.exists_eq_succ_of_ne_zero (Nat.ne_zero_of_lt hi)
    exact readBuffer_succ_of_none len hat
  | succ i ih =>
    obtain ⟨len, rfl⟩ := Nat.exists_eq_succ_of_ne_zero (Nat.ne_zero_of_lt hi)
    obtain ⟨b, hb⟩ := Option.ne_none_iff_exists'.mp (hbefore 0 (Nat.succ_pos i))
    have hshift (j : Nat) : buf + 1 + j = buf + (j + 1) := by omega
    rw [← hshift] at hat ⊢
    exact readBuffer_succ_of_error hb
      (ih (Nat.lt_of_succ_lt_succ hi) (fun j hj => hshift j ▸ hbefore (j + 1) (Nat.succ_lt_succ hj)) hat)

/-! A dispatch operation, by its length against MAX_LEN and by its buffer. -/

variable {p : HostParams} {buf len : Nat} (v : Variant) (w : Width) (s : State)

theorem maxLen_any_eq_false_iff : p.maxLen.any (fun n => decide (n < len)) = false ↔ ∀ n, p.maxLen = some n → len ≤ n := by
  cases p.maxLen <;> simp

theorem hashMacro_of_ok {bytes : List Byte} (hlen : ∀ n, p.maxLen = some n → len ≤ n)
    (hread : readBuffer m buf len = .ok bytes) : hashMacro p v w m buf len s = hashBytes v w bytes s := by
  simp [hashMacro, maxLen_any_eq_false_iff.mpr hlen, hread]

theorem hashMacro_of_error {addr : Nat} (hlen : ∀ n, p.maxLen = some n → len ≤ n)
    (hread : readBuffer m buf len = .error addr) :
    hashMacro p v w m buf len s = .refused (.bufferUnreadable addr) := by
  simp [hashMacro, maxLen_any_eq_false_iff.mpr hlen, hread]

theorem hashMacro_of_maxLen_lt {n : Nat} (h : n < len) :
    hashMacro ⟨some n⟩ v w m buf len s = .refused (.lengthBeyondMaxLen len) := by
  simp [hashMacro, h]

end

/-- Settles O46, from what reading the buffer gives in each case. -/
theorem dispatchReadsTheBufferInOrder : Obligations.DispatchReadsTheBufferInOrder := by
  intro v w m buf s
  refine ⟨fun p bytes hlen hread => ?_, fun len i hi hbefore hat => ?_, fun len n h => ?_⟩
  · exact hashMacro_of_ok v w s hlen (readBuffer_of_readable hread)
  · exact hashMacro_of_error v w s (fun n hn => by cases hn) (readBuffer_of_unreadable hi hbefore hat)
  · exact hashMacro_of_maxLen_lt v w s h

end Sys2Proof.Machine
end

section
/-! PROOFS. A command done twice (20_memory.md, Access widths, atomicity and side effects, R47). -/

namespace Sys2Proof.Machine

/-! The updates a command is made of, done twice. -/

theorem setInit_setInit (st : BitVec 32) : setInit (setInit st) = setInit st := by
  simp only [setInit, BitVec.or_assoc, BitVec.or_self]

theorem setVar_setInit (st : BitVec 32) (v : BitVec 2) : setVar (setInit st) v = setInit (setVar st v) := by
  have hkept : 0x1#32 &&& 0xFFFFFF9F#32 = 0x1#32 := by decide
  rw [setVar, setInit, BitVec.and_or_distrib_right, hkept, BitVec.or_assoc, BitVec.or_comm 0x1#32, ← BitVec.or_assoc,
    setInit, setVar]

theorem setVar_setVar (st : BitVec 32) (v : BitVec 2) : setVar (setVar st v) v = setVar st v := by
  simp only [setVar]
  generalize 0xFFFFFF9F#32 = mask
  ext i hi
  cases hmask : mask[i] <;> simp [hmask]

theorem writeRes_writeRes (v : Word64) (s : State) : writeRes v (writeRes v s) = writeRes v s := rfl

theorem writeDigest_writeDigest (codes : List Byte) (len : BitVec 5) (s : State) :
    writeDigest codes len (writeDigest codes len s) = writeDigest codes len s := by
  simp only [writeDigest]

theorem startCall_startCall (v : Variant) (s : State) : startCall v (startCall v s) = startCall v s := by
  have hst : setInit (setVar (setInit (setVar s.status (variantCode v))) (variantCode v)) =
      setInit (setVar s.status (variantCode v)) := by
    rw [setVar_setInit, setInit_setInit, setVar_setVar]
  simp [startCall, selectVariant, writeAccumulators, hst]

/-! One command, at a faulted and at an unfaulted block. -/

theorem exec_of_fault (i : Instr) {s : State} (hf : s.faultFlag = true) : exec i s = .next s := by
  obtain ⟨act, -, hexec⟩ := exec_eq_unlessFaulted i
  rw [hexec, unlessFaulted_of_fault hf]

/-- A command runs at an unfaulted block that is initialised, and INIT at any unfaulted one. -/
theorem exec_of_ready {i : Instr} {s : State} (hf : s.faultFlag = false)
    (hi : s.initFlag = true ∨ ∃ v, i = .init v) : exec i s = .next (effectOf i s) := by
  by_cases hv : ∃ v, i = .init v
  · obtain ⟨v, rfl⟩ := hv
    rw [exec_init, unlessFaulted_of_noFault hf]
  · rw [exec_reader (fun v e => hv ⟨v, e⟩), unlessFaulted_of_noFault hf, requireInit_of_init (hi.resolve_right hv)]

/-- A command that runs leaves the block ready for the same command. -/
theorem effectOf_ready {i : Instr} {s : State} (hw : i.wellFormed = true)
    (hi : s.initFlag = true ∨ ∃ v, i = .init v) : (effectOf i s).initFlag = true ∨ ∃ v, i = .init v := by
  by_cases hv : ∃ v, i = .init v
  · exact .inr hv
  · have hst : (effectOf i s).status = s.status := (effectOf_runFrame hw s).status fun v e => hv ⟨v, e⟩
    exact .inl ((congrArg statusInit hst).trans (hi.resolve_right hv))

/-- The effect of every command but ABSORB is a function of registers it does not write. -/
theorem effectOf_effectOf {i : Instr} (hw : i.wellFormed = true) (ha : ∀ b, i ≠ .absorb b) (s : State) :
    effectOf i (effectOf i s) = effectOf i s := by
  cases i with
  | init v =>
    obtain ⟨var, rfl, heq⟩ := effectOf_init_wellFormed hw s
    rw [heq]
    simpa [effectOf] using startCall_startCall var s
  | absorb b => exact absurd rfl (ha b)
  | digest32 => simp only [effectOf, writeDigest_acc32, writeDigest_writeDigest]
  | digest64 => simp only [effectOf, writeDigest_acc64Hi, writeDigest_acc64Lo, writeDigest_writeDigest]
  | rdacc32 => simp only [effectOf, writeRes_acc32, writeRes_writeRes]
  | rdacc64 => simp only [effectOf, writeRes_acc64, writeRes_writeRes]

theorem exec_again {i : Instr} {s t : State} (ha : ∀ b, i ≠ .absorb b) (h : exec i s = .next t) :
    exec i t = .next t := by
  obtain ⟨-, rfl⟩ | ⟨-, -, -, rfl⟩ | ⟨hf, hi, rfl⟩ := exec_cases h
  · exact h
  · exact exec_of_fault i (raiseFault_faultFlag s _ _)
  · cases hw : i.wellFormed with
    | false =>
      rw [effectOf_not_wellFormed hw]
      exact exec_of_fault i (raiseFault_faultFlag s _ _)
    | true =>
      have hf' : (effectOf i s).faultFlag = false := (effectOf_runFrame hw s).faultFlag.trans hf
      rw [exec_of_ready hf' (effectOf_ready hw hi), effectOf_effectOf hw ha]

/-- Settles O32. ABSORB is no such command: after INIT ORIG, two ABSORBs of 0x61 leave another ACC32 than one. -/
theorem allButAbsorbAreIdempotent : Obligations.AllButAbsorbAreIdempotent :=
  ⟨fun _ _ _ ha h => exec_again ha h,
    0x61#8, startCall .orig State.reset, absorbByte 0x61#8 (startCall .orig State.reset),
    absorbByte 0x61#8 (absorbByte 0x61#8 (startCall .orig State.reset)),
    exec_of_ready rfl (.inl rfl), exec_of_ready rfl (.inl rfl),
    fun h => absurd (congrArg State.acc32 h) (by decide)⟩

end Sys2Proof.Machine
end

section
/-! PROOFS. The word a decoded command came from (30_encoding.md R63, R65). -/

namespace Sys2Proof

variable {w : CmdWord} {i : Instr}

/-! What a word of each sub-layout that decodes holds in its fields. -/

theorem decodeFV_cases (h : decodeFV w = .ok i) : reservedFV w = 0#10 ∧ i = .init (variantField w) := by
  unfold decodeFV at h
  split at h
  · cases h
  next hres =>
    split at h
    · cases h
    · exact ⟨not_not.mp hres, (Except.ok.inj h).symm⟩

theorem decodeFB_cases (h : decodeFB w = .ok i) : reservedFB w = 0#4 ∧ i = .absorb (byteField w) := by
  unfold decodeFB at h
  split at h
  · cases h
  next hres => exact ⟨not_not.mp hres, (Except.ok.inj h).symm⟩

theorem decodeFW_cases {at32 at64 : Instr} (h : decodeFW w at32 at64 = .ok i) :
    reservedFW w = 0#11 ∧ ((widthField w = 0#1 ∧ i = at32) ∨ (widthField w = 1#1 ∧ i = at64)) := by
  unfold decodeFW at h
  split at h
  · cases h
  next hres =>
    refine ⟨not_not.mp hres, ?_⟩
    split at h
    next hwidth => exact .inl ⟨hwidth, (Except.ok.inj h).symm⟩
    next hwidth => exact .inr ⟨(BitVec.eq_zero_or_eq_one _).resolve_left hwidth, (Except.ok.inj h).symm⟩

/-- A word that decodes is of one of the four sub-layouts R63 lists, by its opcode. -/
theorem decode_cases (h : decode w = .ok i) :
    (opField w = 0x1#4 ∧ decodeFV w = .ok i) ∨ (opField w = 0x2#4 ∧ decodeFB w = .ok i) ∨
    (opField w = 0x3#4 ∧ decodeFW w .digest32 .digest64 = .ok i) ∨
    (opField w = 0x4#4 ∧ decodeFW w .rdacc32 .rdacc64 = .ok i) := by
  unfold decode at h
  split at h
  next hop => exact .inl ⟨hop, h⟩
  split at h
  next hop => exact .inr (.inl ⟨hop, h⟩)
  split at h
  next hop => exact .inr (.inr (.inl ⟨hop, h⟩))
  split at h
  next hop => exact .inr (.inr (.inr ⟨hop, h⟩))
  cases h

/-! A word of each sub-layout as a number, from its fields (R62, R64). -/

theorem toNat_of_reservedFV (h : reservedFV w = 0#10) :
    w.toNat = 4096 * (opField w).toNat + (variantField w).toNat := by
  have hres : w.toNat / 4 % 1024 = 0 := by rw [← reservedFV_toNat, h]; rfl
  rw [opField_toNat, variantField_toNat]
  omega

theorem toNat_of_reservedFB (h : reservedFB w = 0#4) :
    w.toNat = 4096 * (opField w).toNat + (byteField w).toNat := by
  have hres : w.toNat / 256 % 16 = 0 := by rw [← reservedFB_toNat, h]; rfl
  rw [opField_toNat, byteField_toNat]
  omega

theorem toNat_of_reservedFW (h : reservedFW w = 0#11) :
    w.toNat = 4096 * (opField w).toNat + (widthField w).toNat := by
  have hres : w.toNat / 2 % 2048 = 0 := by rw [← reservedFW_toNat, h]; rfl
  rw [opField_toNat, widthField_toNat]
  omega

/-- The decoder loses nothing: a decoded command's word is the word it was decoded from. -/
theorem encode_of_decode (h : decode w = .ok i) : encode i = w := by
  apply BitVec.eq_of_toNat_eq
  rw [encode_toNat]
  obtain ⟨hop, hw⟩ | ⟨hop, hw⟩ | ⟨hop, hw⟩ | ⟨hop, hw⟩ := decode_cases h
  · obtain ⟨hres, rfl⟩ := decodeFV_cases hw
    rw [toNat_of_reservedFV hres, hop]
    rfl
  · obtain ⟨hres, rfl⟩ := decodeFB_cases hw
    rw [toNat_of_reservedFB hres, hop]
    rfl
  · obtain ⟨hres, ⟨hwidth, rfl⟩ | ⟨hwidth, rfl⟩⟩ := decodeFW_cases hw
    · rw [toNat_of_reservedFW hres, hop, hwidth]
      rfl
    · rw [toNat_of_reservedFW hres, hop, hwidth]
      rfl
  · obtain ⟨hres, ⟨hwidth, rfl⟩ | ⟨hwidth, rfl⟩⟩ := decodeFW_cases hw
    · rw [toNat_of_reservedFW hres, hop, hwidth]
      rfl
    · rw [toNat_of_reservedFW hres, hop, hwidth]
      rfl

end Sys2Proof
end

section
/-! PROOFS. A digest as the digits of a number (00_scope.md R14; 43_hex_encoder.md R130, R131), and DOUT after a DIGEST. -/

namespace Sys2Proof.Machine

open Sys2Proof.SpecView

theorem charCode_hexchar_eq_hexByte (n : BitVec 4) : charCode (hexchar n) = hexByte n.toNat :=
  charCode_hexchar n

/-- `hex8` renders the eight digits of its word. -/
theorem hex8_charCodes (w : Word32) : (hex8 w).map charCode = hexBytes 8 w.toNat := by
  rw [hex8, hexBytes, List.map_map]
  refine List.map_congr_left fun i hi => ?_
  have hpow : 2 ^ (28 - 4 * i) = 16 ^ (8 - 1 - i) := by
    rw [show 28 - 4 * i = 4 * (8 - 1 - i) by omega, Nat.pow_mul]
  rw [Function.comp_apply, charCode_hexchar_eq_hexByte, BitVec.extractLsb'_toNat, Nat.shiftRight_eq_div_pow, hpow]

/-- The digits of a number, cut in two: the upper digits are those of the quotient, the lower those of the remainder. -/
theorem hexBytes_add (a b n : Nat) : hexBytes (a + b) n = hexBytes a (n / 16 ^ b) ++ hexBytes b (n % 16 ^ b) := by
  simp only [hexBytes, List.range_add, List.map_append, List.map_map]
  congr 1
  · refine List.map_congr_left fun i hi => ?_
    have hia : i < a := List.mem_range.mp hi
    rw [show a + b - 1 - i = b + (a - 1 - i) by omega, Nat.pow_add, Nat.div_div_eq_div_mul]
  · refine List.map_congr_left fun i hi => ?_
    have hib : i < b := List.mem_range.mp hi
    have hdvd : 16 ^ (b - 1 - i) * 16 ∣ 16 ^ b := pow_succ 16 (b - 1 - i) ▸ Nat.pow_dvd_pow 16 (by omega)
    rw [Function.comp_apply, show a + b - 1 - (a + i) = b - 1 - i by omega, ← Nat.mod_mul_right_div_self,
      ← Nat.mod_mul_right_div_self, Nat.mod_mod_of_dvd _ hdvd]

/-- `hex16` renders the sixteen digits of `{HI, LO}`. -/
theorem hex16_charCodes (hi lo : Word32) : (hex16 hi lo).map charCode = hexBytes 16 (joinWords hi lo).toNat := by
  have hpow : 2 ^ 32 = 16 ^ 8 := by norm_num
  have hhi : (joinWords hi lo).toNat / 16 ^ 8 = hi.toNat := by
    rw [← congrArg BitVec.toNat (highWord_joinWords hi lo), highWord_toNat, hpow]
  have hlo : (joinWords hi lo).toNat % 16 ^ 8 = lo.toNat := by
    rw [← congrArg BitVec.toNat (lowWord_joinWords hi lo), lowWord_toNat, hpow]
  rw [hex16, List.map_append, hex8_charCodes, hex8_charCodes, hexBytes_add 8 8, hhi, hlo]

/-- A DIGEST's codes stand in DOUT from DOUT[0] on. -/
theorem writeDigest_dout_take {codes : List Byte} {n : Nat} (hlen : codes.length = n) (hn : n ≤ 16) (len : BitVec 5)
    (s : State) : (writeDigest codes len s).dout.toList.take n = codes := by
  subst hlen
  apply List.ext_getElem
  · simpa using hn
  · intro i hi hi'
    simp [hi']

/-- DIGEST32 leaves the eight digits of ACC32 in DOUT[0 .. 7] (R134). -/
theorem effectOf_digest32_dout (s : State) :
    (effectOf .digest32 s).dout.toList.take 8 = hexBytes 8 s.acc32.toNat :=
  (writeDigest_dout_take (by simp) (by decide) 8#5 s).trans (hex8_charCodes s.acc32)

/-- DIGEST64 fills DOUT with the sixteen digits of the 64-bit accumulator (R135). -/
theorem effectOf_digest64_dout (s : State) : (effectOf .digest64 s).dout.toList = hexBytes 16 s.acc64.toNat := by
  have htake : (effectOf .digest64 s).dout.toList.take 16 = (hex16 s.acc64Hi s.acc64Lo).map charCode :=
    writeDigest_dout_take (by simp) (by decide) 16#5 s
  rw [List.take_of_length_le (by simp)] at htake
  exact htake.trans (hex16_charCodes s.acc64Hi s.acc64Lo)

end Sys2Proof.Machine
end

section
/-! PROOFS. What a host read returns after a command (20_memory.md R50; 10_state.md R20, R36): the register as the last
command that wrote it left it. -/

namespace Sys2Proof.Machine

open Sys2Proof.SpecView

/-! A read of a register after the update that writes it. -/

theorem hostRead_res_writeRes (v : Word64) (s : State) : hostRead .res (writeRes v s) = .next (.res v) := rfl

theorem hostRead_dout_writeDigest (codes : List Byte) {len : BitVec 5} (h : len ≠ 0#5) (s : State) :
    hostRead .dout (writeDigest codes len s) = .next (.dout (writeDigest codes len s).dout) := by
  simp [hostRead_dout, h]

theorem hostRead_dlen_writeDigest (codes : List Byte) (len : BitVec 5) (s : State) :
    hostRead .dlen (writeDigest codes len s) = .next (.dlen len) := rfl

/-! STATUS as INIT and as the fault action write it, in the spec's formulas (42_variant_policy.md R113; 60_exceptions.md
R172). -/

theorem setInit_setVar (st : BitVec 32) (v : BitVec 2) :
    setInit (setVar st v) = (st &&& 0xFFFFFF9F#32) ||| 0x1#32 ||| (v.setWidth 32 <<< 5) := by
  rw [setInit, setVar, BitVec.or_assoc, BitVec.or_comm (v.setWidth 32 <<< 5), ← BitVec.or_assoc]

theorem setCause_setFault (st : BitVec 32) (c : BitVec 3) :
    setCause (setFault st) c = (st &&& 0xFFFFFFE1#32) ||| 0x2#32 ||| (c.setWidth 32 <<< 2) := by
  have hmask : 0xFFFFFFE3#32 = 0xFFFFFFE1#32 ||| 0x2#32 := by decide
  rw [setCause, setFault, hmask]
  ext i hi
  simp only [BitVec.getElem_or, BitVec.getElem_and, Bool.or_and_distrib_right]

/-- The fault action is the spec's record of the fault. -/
theorem raiseFault_eq_recordFault (c : FaultCause) (cmd : CmdWord) (s : State) :
    raiseFault c cmd s = recordFault ((causeCode c).setWidth 32) cmd s := by
  simp [raiseFault, recordFault, setCause_setFault]

/-! The state a command leaves, where it runs and where a command word faults. -/

theorem eq_effectOf_of_exec {i : Instr} {s t : State} (hf : s.faultFlag = false)
    (hi : s.initFlag = true ∨ ∃ v, i = .init v) (h : exec i s = .next t) : t = effectOf i s :=
  Host.Outcome.next.inj (h.symm.trans (exec_of_ready hf hi))

/-- A word that faults an unfaulted block is recorded, whichever check it fails. -/
theorem performWord_of_raised {w : CmdWord} {s t : State} (hf : s.faultFlag = false)
    (h : performWord w s = .next t) (ht : t.faultFlag = true) : ∃ c, t = raiseFault c w s := by
  obtain ⟨hf', -⟩ | ⟨-, c, -, rfl⟩ | ⟨-, i, hd, hexec⟩ := performWord_cases h
  · simp [hf] at hf'
  · exact ⟨c, rfl⟩
  · obtain hrun | ⟨-, c, rfl⟩ := exec_runFrame_or_fault hexec
    · simp [hrun.faultFlag, hf] at ht
    · exact ⟨c, by rw [encode_of_decode hd]⟩

/-! The clauses of R50. -/

/-- RES after RDACC, DOUT and DLEN after DIGEST. -/
theorem hostRead_after_output {s t : State} (hf : s.faultFlag = false) (hinit : s.initFlag = true) :
    (exec .rdacc32 s = .next t → hostRead .res t = .next (.res (BitVec.ofNat 64 s.acc32.toNat))) ∧
    (exec .rdacc64 s = .next t → hostRead .res t = .next (.res s.acc64)) ∧
    (exec .digest32 s = .next t → hostRead .dout t = .next (.dout t.dout) ∧ hostRead .dlen t = .next (.dlen 8#5) ∧
      t.dout.toList.take 8 = hexBytes 8 s.acc32.toNat) ∧
    (exec .digest64 s = .next t → hostRead .dout t = .next (.dout t.dout) ∧ hostRead .dlen t = .next (.dlen 16#5) ∧
      t.dout.toList = hexBytes 16 s.acc64.toNat) := by
  refine ⟨fun h => ?_, fun h => ?_, fun h => ?_, fun h => ?_⟩
  all_goals obtain rfl := eq_effectOf_of_exec hf (.inl hinit) h
  · rw [BitVec.ofNat_toNat]
    exact hostRead_res_writeRes _ s
  · exact hostRead_res_writeRes _ s
  · exact ⟨hostRead_dout_writeDigest _ (by decide) s, hostRead_dlen_writeDigest _ _ s, effectOf_digest32_dout s⟩
  · exact ⟨hostRead_dout_writeDigest _ (by decide) s, hostRead_dlen_writeDigest _ _ s, effectOf_digest64_dout s⟩

/-- STATUS after INIT. -/
theorem hostRead_status_after_init {v : BitVec 2} {s t : State} (hv : v ≠ 3#2) (hf : s.faultFlag = false)
    (h : exec (.init v) s = .next t) :
    hostRead .status t = .next (.status ((s.status &&& 0xFFFFFF9F#32) ||| 0x1#32 ||| (v.setWidth 32 <<< 5))) := by
  obtain ⟨var, rfl, heq⟩ := effectOf_init_wellFormed (by simpa [Instr.wellFormed] using hv) s
  rw [eq_effectOf_of_exec hf (.inr ⟨_, rfl⟩) h, heq, ← setInit_setVar]
  rfl

/-- FCMD and STATUS after a word that faults. -/
theorem hostRead_after_fault {w : CmdWord} {s t : State} (hf : s.faultFlag = false) (h : performWord w s = .next t)
    (ht : t.faultFlag = true) :
    hostRead .fcmd t = .next (.fcmd w) ∧
    hostRead .status t = .next (.status (recordFault (t.cause.setWidth 32) w s).status) := by
  obtain ⟨c, rfl⟩ := performWord_of_raised hf h ht
  rw [raiseFault_cause, ← raiseFault_eq_recordFault]
  exact ⟨rfl, rfl⟩

/-- The output registers a command does not write read as before. -/
theorem hostRead_unwritten {i : Instr} {s t : State} (h : exec i s = .next t) :
    (i ≠ .rdacc32 → i ≠ .rdacc64 → hostRead .res t = hostRead .res s) ∧
    (i ≠ .digest32 → i ≠ .digest64 → hostRead .dout t = hostRead .dout s ∧ hostRead .dlen t = hostRead .dlen s) ∧
    (t.faultFlag = s.faultFlag → hostRead .fcmd t = hostRead .fcmd s) ∧
    (t.faultFlag = s.faultFlag → (∀ v, i ≠ .init v) → hostRead .status t = hostRead .status s) := by
  obtain hrun | ⟨hf, c, rfl⟩ := exec_runFrame_or_fault h
  · refine ⟨fun h32 h64 => ?_, fun h32 h64 => ?_, fun _ => ?_, fun _ hi => ?_⟩
    · obtain ⟨hres, hwritten⟩ := hrun.res h32 h64
      rw [hostRead_res, hostRead_res, hres, hwritten]
    · obtain ⟨hdout, hdlen⟩ := hrun.digest h32 h64
      rw [hostRead_dout, hostRead_dout, hostRead_dlen, hostRead_dlen, hdout, hdlen]
      exact ⟨rfl, rfl⟩
    · rw [hostRead_fcmd, hostRead_fcmd, hrun.fcmd]
    · rw [hostRead_status, hostRead_status, hrun.status hi]
  · have hraised : (raiseFault c (encode i) s).faultFlag ≠ s.faultFlag := by simp [hf]
    exact ⟨fun _ _ => rfl, fun _ _ => ⟨rfl, rfl⟩, fun he => absurd he hraised, fun he => absurd he hraised⟩

/-- STATUS, FCMD and DLEN can always be read; RES and DOUT hold no value before their first write (10_state.md R36). -/
theorem hostRead_of_state (s : State) :
    hostRead .status s = .next (.status s.status) ∧ hostRead .fcmd s = .next (.fcmd s.fcmd) ∧
    hostRead .dlen s = .next (.dlen s.dlen) ∧
    (s.resWritten = false → hostRead .res s = .next (.noValue .res)) ∧
    (s.dlen = 0#5 → hostRead .dout s = .next (.noValue .dout)) :=
  ⟨hostRead_status s, hostRead_fcmd s, hostRead_dlen s, fun h => by simp [hostRead_res, h],
    fun h => by simp [hostRead_dout, h]⟩

/-- The accumulators are the registers without host access (10_state.md R20, R30). -/
theorem hostRead_of_not_hostReadable {r : RegId} (h : r.hostReadable = false) (s : State) :
    hostRead r s = .refused (.noHostAccess r) := by
  cases r with
  | status => cases h
  | fcmd => cases h
  | res => cases h
  | dout => cases h
  | dlen => cases h
  | acc32 => rfl
  | acc64Lo => rfl
  | acc64Hi => rfl

/-- Settles O31, clause by clause. -/
theorem hostReadsReturnTheLastWrite : Obligations.HostReadsReturnTheLastWrite :=
  ⟨fun _ _ hf hinit => hostRead_after_output hf hinit,
    fun _ _ _ hv hf h => hostRead_status_after_init hv hf h,
    fun _ _ _ hf h ht => hostRead_after_fault hf h ht,
    fun _ _ _ h => hostRead_unwritten h,
    hostRead_of_state,
    fun _ s h => hostRead_completes s h,
    fun _ s h => hostRead_of_not_hostReadable h s⟩

end Sys2Proof.Machine
end

section
/-! PROOFS. The decoder as arithmetic on the word's number, and the legal words (30_encoding.md R63, R65). -/

namespace Sys2Proof

open Sys2Proof.Machine Sys2Proof.SpecView

/-! Decoding and encoding, command by command and word by word. -/

/-- INIT with the reserved variant code, the one term that is not well-formed, is decoded from no word (R67). -/
theorem wellFormed_of_decode {w : CmdWord} {i : Instr} (h : decode w = .ok i) : i.wellFormed = true := by
  cases i with
  | init v =>
    have hv : v ≠ 3#2 := by
      rintro rfl
      rw [← encode_of_decode h, decode_encode_reservedVariant] at h
      cases h
    exact bne_iff_ne.mpr hv
  | absorb b => rfl
  | digest32 => rfl
  | digest64 => rfl
  | rdacc32 => rfl
  | rdacc64 => rfl

/-- Settles O1: the encoder's word decodes to its command, and a decoded command's word is the one it came from. -/
theorem decodeAndEncodeAgree : Obligations.DecodeAndEncodeAgree :=
  ⟨fun _ hi => decode_encode hi, fun _ _ h => ⟨wellFormed_of_decode h, encode_of_decode h⟩⟩

/-! The decoder, each field a quotient or a remainder of the word's number (R61, R62, R64, R65). -/

theorem opField_eq_iff (w : CmdWord) (op : BitVec 4) : opField w = op ↔ w.toNat / 4096 = op.toNat := by
  rw [← BitVec.toNat_inj, opField_toNat]

theorem variantField_eq_iff (w : CmdWord) (v : BitVec 2) : variantField w = v ↔ w.toNat % 4 = v.toNat := by
  rw [← BitVec.toNat_inj, variantField_toNat]

theorem widthField_eq_iff (w : CmdWord) (b : BitVec 1) : widthField w = b ↔ w.toNat % 2 = b.toNat := by
  rw [← BitVec.toNat_inj, widthField_toNat]

theorem reservedFV_eq_zero_iff (w : CmdWord) : reservedFV w = 0#10 ↔ w.toNat / 4 % 1024 = 0 := by
  rw [← BitVec.toNat_inj, reservedFV_toNat, BitVec.toNat_ofNat, Nat.zero_mod]

theorem reservedFB_eq_zero_iff (w : CmdWord) : reservedFB w = 0#4 ↔ w.toNat / 256 % 16 = 0 := by
  rw [← BitVec.toNat_inj, reservedFB_toNat, BitVec.toNat_ofNat, Nat.zero_mod]

theorem reservedFW_eq_zero_iff (w : CmdWord) : reservedFW w = 0#11 ↔ w.toNat / 2 % 2048 = 0 := by
  rw [← BitVec.toNat_inj, reservedFW_toNat, BitVec.toNat_ofNat, Nat.zero_mod]

theorem variantField_eq_ofNat (w : CmdWord) : variantField w = BitVec.ofNat 2 (w.toNat % 4) := by
  rw [← variantField_toNat, BitVec.ofNat_toNat, BitVec.setWidth_eq]

theorem byteField_eq_ofNat (w : CmdWord) : byteField w = BitVec.ofNat 8 (w.toNat % 256) := by
  rw [← byteField_toNat, BitVec.ofNat_toNat, BitVec.setWidth_eq]

theorem decodeFV_arith (w : CmdWord) :
    decodeFV w =
      if w.toNat / 4 % 1024 ≠ 0 then .error .reservedBits
      else if w.toNat % 4 = 3 then .error .reservedVariant
      else .ok (.init (BitVec.ofNat 2 (w.toNat % 4))) := by
  simp only [decodeFV, ne_eq, reservedFV_eq_zero_iff, variantField_eq_iff, BitVec.reduceToNat]
  rw [variantField_eq_ofNat]

theorem decodeFB_arith (w : CmdWord) :
    decodeFB w =
      if w.toNat / 256 % 16 ≠ 0 then .error .reservedBits else .ok (.absorb (BitVec.ofNat 8 (w.toNat % 256))) := by
  simp only [decodeFB, ne_eq, reservedFB_eq_zero_iff, byteField_eq_ofNat]

theorem decodeFW_arith (w : CmdWord) (at32 at64 : Instr) :
    decodeFW w at32 at64 =
      if w.toNat / 2 % 2048 ≠ 0 then .error .reservedBits
      else if w.toNat % 2 = 0 then .ok at32 else .ok at64 := by
  simp only [decodeFW, ne_eq, reservedFW_eq_zero_iff, widthField_eq_iff, BitVec.reduceToNat]

theorem decode_arith (w : CmdWord) :
    decode w =
      if w.toNat / 4096 = 1 then decodeFV w
      else if w.toNat / 4096 = 2 then decodeFB w
      else if w.toNat / 4096 = 3 then decodeFW w .digest32 .digest64
      else if w.toNat / 4096 = 4 then decodeFW w .rdacc32 .rdacc64
      else .error .illegalOpcode := by
  simp only [decode, opField_eq_iff, BitVec.reduceToNat]

/-- Settles O2: the opcode selects the sub-layout, and the sub-layout's fields the answer. -/
theorem decodeFollowsTheDecodingRule : Obligations.DecodeFollowsTheDecodingRule := by
  intro w
  refine ⟨?fvReserved, ?fvVariant, ?fvInit, ?fbReserved, ?fbAbsorb, ?fwReserved, ?fwDigest, ?fwRdacc, ?illegal⟩
  case fvReserved => intro hop hres; simp [decode_arith, hop, decodeFV_arith, hres]
  case fvVariant => intro hop hres hv; simp [decode_arith, hop, decodeFV_arith, hres, hv]
  case fvInit => intro hop hres hv; simp [decode_arith, hop, decodeFV_arith, hres, hv]
  case fbReserved => intro hop hres; simp [decode_arith, hop, decodeFB_arith, hres]
  case fbAbsorb => intro hop hres; simp [decode_arith, hop, decodeFB_arith, hres]
  case fwReserved => rintro (hop | hop) hres <;> simp [decode_arith, hop, decodeFW_arith, hres]
  case fwDigest => intro hop hres; simp [decode_arith, hop, decodeFW_arith, hres]
  case fwRdacc => intro hop hres; simp [decode_arith, hop, decodeFW_arith, hres]
  case illegal =>
    intro hop
    rw [decode_arith, if_neg (by omega), if_neg (by omega), if_neg (by omega), if_neg (by omega)]

/-! The legal words are the words of the well-formed commands (R63). -/

theorem encode_init_toNat (v : BitVec 2) : (encode (.init v)).toNat = 0x1000 + v.toNat := encode_toNat _

theorem encode_absorb_toNat (b : Byte) : (encode (.absorb b)).toNat = 0x2000 + b.toNat := encode_toNat _

theorem encode_init_eq_ofNat (v : BitVec 2) : encode (.init v) = BitVec.ofNat 16 (0x1000 + v.toNat) :=
  BitVec.eq_of_toNat_eq (by rw [encode_init_toNat, BitVec.toNat_ofNat]; omega)

theorem encode_absorb_eq_ofNat (b : Byte) : encode (.absorb b) = BitVec.ofNat 16 (0x2000 + b.toNat) :=
  BitVec.eq_of_toNat_eq (by rw [encode_absorb_toNat, BitVec.toNat_ofNat]; omega)

theorem isInitWord_encode_init {v : BitVec 2} (hv : v ≠ 3#2) : isInitWord (encode (.init v)) := by
  have hne : v.toNat ≠ 3 := fun h => hv (BitVec.eq_of_toNat_eq h)
  rw [isInitWord, encode_init_toNat]
  omega

theorem isReaderWord_encode_absorb (b : Byte) : isReaderWord (encode (.absorb b)) := by
  refine .inl ?_
  rw [encode_absorb_toNat]
  omega

theorem exists_init_of_isInitWord {w : CmdWord} (h : isInitWord w) :
    ∃ v : BitVec 2, v ≠ 3#2 ∧ encode (.init v) = w := by
  obtain ⟨hlo, hhi⟩ := h
  refine ⟨variantField w, fun hv => ?_, BitVec.eq_of_toNat_eq ?_⟩
  · have hmod : w.toNat % 4 = 3 := (variantField_eq_iff w 3#2).mp hv
    omega
  · rw [encode_init_toNat, variantField_toNat]
    omega

theorem exists_absorb_of_range {w : CmdWord} (hlo : 0x2000 ≤ w.toNat) (hhi : w.toNat ≤ 0x20FF) :
    ∃ b : Byte, encode (.absorb b) = w := by
  refine ⟨byteField w, BitVec.eq_of_toNat_eq ?_⟩
  rw [encode_absorb_toNat, byteField_toNat]
  omega

theorem legalWord_encode {i : Instr} (hi : i.wellFormed = true) :
    isInitWord (encode i) ∨ isReaderWord (encode i) := by
  cases i with
  | init v => exact .inl (isInitWord_encode_init (bne_iff_ne.mp hi))
  | absorb b => exact .inr (isReaderWord_encode_absorb b)
  | digest32 => exact .inr (.inr (.inl rfl))
  | digest64 => exact .inr (.inr (.inr (.inl rfl)))
  | rdacc32 => exact .inr (.inr (.inr (.inr (.inl rfl))))
  | rdacc64 => exact .inr (.inr (.inr (.inr (.inr rfl))))

theorem exists_wellFormed_of_legalWord {w : CmdWord} (h : isInitWord w ∨ isReaderWord w) :
    ∃ i : Instr, i.wellFormed = true ∧ encode i = w := by
  obtain hinit | ⟨hlo, hhi⟩ | rfl | rfl | rfl | rfl := h
  · obtain ⟨v, hv, hw⟩ := exists_init_of_isInitWord hinit
    exact ⟨.init v, bne_iff_ne.mpr hv, hw⟩
  · obtain ⟨b, hw⟩ := exists_absorb_of_range hlo hhi
    exact ⟨.absorb b, rfl, hw⟩
  · exact ⟨.digest32, rfl, rfl⟩
  · exact ⟨.digest64, rfl, rfl⟩
  · exact ⟨.rdacc32, rfl, rfl⟩
  · exact ⟨.rdacc64, rfl, rfl⟩

theorem exists_decode_iff_legalWord (w : CmdWord) :
    (∃ i, decode w = .ok i) ↔ isInitWord w ∨ isReaderWord w := by
  constructor
  · rintro ⟨i, h⟩
    rw [← encode_of_decode h]
    exact legalWord_encode (wellFormed_of_decode h)
  · intro h
    obtain ⟨i, hi, rfl⟩ := exists_wellFormed_of_legalWord h
    exact ⟨i, decode_encode hi⟩

theorem exists_decode_error_of_not_legalWord {w : CmdWord} (h : ¬ (isInitWord w ∨ isReaderWord w)) :
    ∃ c, decode w = .error c := by
  cases hd : decode w with
  | error c => exact ⟨c, rfl⟩
  | ok i => exact absurd ((exists_decode_iff_legalWord w).mp ⟨i, hd⟩) h

/-- Settles O3: a word is legal exactly when it is a command's word, and a command's word decodes to the command. -/
theorem legalCommandWordsAreExactly263 : Obligations.LegalCommandWordsAreExactly263 := by
  refine ⟨exists_decode_iff_legalWord, fun w => exists_decode_error_of_not_legalWord, fun v hv => ?_, fun b => ?_,
    decode_encode (i := .digest32) rfl, decode_encode (i := .digest64) rfl, decode_encode (i := .rdacc32) rfl,
    decode_encode (i := .rdacc64) rfl⟩
  · rw [← encode_init_eq_ofNat]
    exact decode_encode (bne_iff_ne.mpr hv)
  · rw [← encode_absorb_eq_ofNat]
    exact decode_encode rfl

/-- Settles O4, by running the decoder on the seven words. -/
theorem writtenOutWordsDecode : Obligations.WrittenOutWordsDecode := by
  unfold Obligations.WrittenOutWordsDecode
  decide

end Sys2Proof
end

section
/-! PROOFS. The assembly form of the commands (30_encoding.md R70, R71): a line taken apart into mnemonic and operand, and
each form of operand read. -/

namespace Sys2Proof.Machine

open Sys2Proof.SpecView

/-! A line: blanks at its ends, a mnemonic, one blank, an operand. -/

theorem trimBlanks_of_ends {c d : Char} (hc : isBlank c = false) (hd : isBlank d = false) (mid : List Char) :
    trimBlanks (c :: (mid ++ [d])) = c :: (mid ++ [d]) := by
  simp [trimBlanks, hc, hd]

theorem trimBlanks_blank_cons (cs : List Char) : trimBlanks (' ' :: cs) = trimBlanks cs := rfl

/-- A mnemonic without blanks, one blank, and an operand that neither begins nor ends with a blank. -/
theorem assembleLine_of_operand {m c d : Char} {ms : List Char} (hmn : ∀ x ∈ m :: ms, isBlank x = false)
    (hc : isBlank c = false) (hd : isBlank d = false) (mid : List Char) :
    assembleLine (m :: ms ++ ' ' :: c :: (mid ++ [d])) = assembleParts (m :: ms) (c :: (mid ++ [d])) := by
  have hline : m :: ms ++ ' ' :: c :: (mid ++ [d]) = m :: ((ms ++ ' ' :: c :: mid) ++ [d]) := by simp
  have htrim : trimBlanks (m :: ms ++ ' ' :: c :: (mid ++ [d])) = m :: ms ++ ' ' :: c :: (mid ++ [d]) := by
    rw [hline, trimBlanks_of_ends (hmn m List.mem_cons_self) hd]
  have hmn' : ∀ x ∈ m :: ms, (!isBlank x) = true := fun x hx => by rw [hmn x hx]; rfl
  rw [assembleLine, htrim, List.takeWhile_append_of_pos hmn', List.dropWhile_append_of_pos hmn',
    List.takeWhile_cons_of_neg (by decide), List.dropWhile_cons_of_neg (by decide), List.append_nil,
    trimBlanks_blank_cons, trimBlanks_of_ends hc hd]

theorem assembleLine_absorb {c d : Char} (hc : isBlank c = false) (hd : isBlank d = false) (mid : List Char) :
    assembleLine ("ABSORB ".toList ++ c :: (mid ++ [d])) =
      (parseByte (c :: (mid ++ [d]))).map fun b => .words [encode (.absorb b)] :=
  assembleLine_of_operand (m := 'A') (ms := "BSORB".toList) (by simp [isBlank]) hc hd mid

theorem assembleLine_absorbs {c d : Char} (hc : isBlank c = false) (hd : isBlank d = false) (mid : List Char) :
    assembleLine ("ABSORBS ".toList ++ c :: (mid ++ [d])) =
      (parseByteSequence (c :: (mid ++ [d]))).map fun bs => .words (absorbWords bs) :=
  assembleLine_of_operand (m := 'A') (ms := "BSORBS".toList) (by simp [isBlank]) hc hd mid

/-! Two hexadecimal digits name a byte. -/

theorem hexDigit_hexText {n : Nat} (h : n < 16) : hexDigit (hexText n) = some n := by
  revert n
  decide

theorem isBlank_hexText {n : Nat} (h : n < 16) : isBlank (hexText n) = false := by
  revert n
  decide

/-- The two hexadecimal digits of a byte read as the byte. -/
theorem byte_of_hexDigits (b : Byte) : BitVec.ofNat 8 (b.toNat / 16 * 16 + b.toNat % 16) = b := by
  rw [Nat.div_add_mod', BitVec.ofNat_toNat, BitVec.setWidth_eq]

theorem highDigit_lt (b : Byte) : b.toNat / 16 < 16 := by omega

theorem lowDigit_lt (b : Byte) : b.toNat % 16 < 16 := by omega

/-! The operand of ABSORB (R70). -/

theorem parseByte_hex (b : Byte) : parseByte ['0', 'x', hexText (b.toNat / 16), hexText (b.toNat % 16)] = some b := by
  have hlt : b.toNat / 16 * 16 + b.toNat % 16 < 256 := by omega
  simp [parseByte, parseNumber, digitsFrom, hexDigit_hexText (highDigit_lt b), hexDigit_hexText (lowDigit_lt b), hlt,
    byte_of_hexDigits]

theorem parseByte_literal {c : Char} (h : c.toNat < 128) : parseByte ['\'', c, '\''] = some (charCode c) :=
  if_pos h

theorem assembleLine_absorb_hex (b : Byte) :
    assembleLine ("ABSORB 0x".toList ++ [hexText (b.toNat / 16), hexText (b.toNat % 16)]) =
      some (.words [encode (.absorb b)]) := by
  have hline := assembleLine_absorb (c := '0') (by decide) (isBlank_hexText (lowDigit_lt b))
    ['x', hexText (b.toNat / 16)]
  exact hline.trans (congrArg _ (parseByte_hex b))

/-- Settles O5: the two hexadecimal digits of ABSORB's form read as its byte, and the other commands' forms are closed
lines. -/
theorem assemblyTextAssemblesToTheWord : Obligations.AssemblyTextAssemblesToTheWord := by
  intro i hi
  cases i with
  | init v => revert v; decide
  | absorb b => exact ⟨_, rfl, assembleLine_absorb_hex b⟩
  | digest32 => exact ⟨_, rfl, by decide⟩
  | digest64 => exact ⟨_, rfl, by decide⟩
  | rdacc32 => exact ⟨_, rfl, by decide⟩
  | rdacc64 => exact ⟨_, rfl, by decide⟩

/-! A list of one-character literals (R71). -/

theorem absorbWords_map_charCode {cs : List Char} (h : ∀ c ∈ cs, c.toNat < 128) :
    absorbWords (cs.map charCode) = cs.map fun c => BitVec.ofNat 16 (0x2000 + c.toNat) := by
  rw [absorbWords, List.map_map]
  refine List.map_congr_left fun c hc => ?_
  have hlt := h c hc
  rw [Function.comp_apply, encode_absorb_eq_ofNat, charCode, BitVec.toNat_ofNat, Nat.mod_eq_of_lt (by omega)]

theorem absorbWords_eq_map_ofNat (bytes : List Byte) :
    absorbWords bytes = bytes.map fun b => BitVec.ofNat 16 (0x2000 + b.toNat) :=
  List.map_congr_left fun b _ => encode_absorb_eq_ofNat b

/-- A list of literals begins and ends with an apostrophe. -/
theorem literalList_ends (c : Char) (cs : List Char) : ∃ mid, literalList (c :: cs) = '\'' :: (mid ++ ['\'']) := by
  induction cs generalizing c with
  | nil => exact ⟨[c], rfl⟩
  | cons c' cs ih =>
    obtain ⟨mid, hmid⟩ := ih c'
    exact ⟨c :: '\'' :: ',' :: '\'' :: mid, by simp [literalList, hmid]⟩

theorem trimBlanks_literalList (c : Char) (cs : List Char) :
    trimBlanks (literalList (c :: cs)) = literalList (c :: cs) := by
  obtain ⟨mid, hmid⟩ := literalList_ends c cs
  rw [hmid, trimBlanks_of_ends (by decide) (by decide)]

/-- The commas between literals separate, and those inside literals do not. -/
theorem splitCommas_literalList (c : Char) (cs : List Char) :
    splitCommas (literalList (c :: cs)) = (c :: cs).map fun x => ['\'', x, '\''] := by
  induction cs generalizing c with
  | nil => simp [literalList, splitCommas, ontoFirst]
  | cons c' cs ih => simp [literalList, splitCommas, ontoFirst, ih c']

theorem allSome_map_some (bytes : List Byte) : allSome (bytes.map some) = some bytes := by
  induction bytes with
  | nil => rfl
  | cons b bytes ih => rw [List.map_cons, allSome, ih, Option.map_some]

theorem parseByte_part {c : Char} (h : c.toNat < 128) :
    parseByte (trimBlanks ['\'', c, '\'']) = some (charCode c) := by
  rw [show ['\'', c, '\''] = '\'' :: ([c] ++ ['\'']) from rfl, trimBlanks_of_ends (by decide) (by decide)]
  exact parseByte_literal h

theorem parseByteList_literalList {cs : List Char} (h : ∀ c ∈ cs, c.toNat < 128) :
    parseByteList (literalList cs ++ [']']) = some (cs.map charCode) := by
  cases cs with
  | nil => rfl
  | cons c cs =>
    have hparts : ((c :: cs).map fun x => parseByte (trimBlanks ['\'', x, '\''])) = ((c :: cs).map charCode).map some := by
      rw [List.map_map]
      exact List.map_congr_left fun x hx => parseByte_part (h x hx)
    have hne : (literalList (c :: cs)).isEmpty = false := by
      obtain ⟨mid, hmid⟩ := literalList_ends c cs
      rw [hmid, List.isEmpty_cons]
    simp only [parseByteList, List.reverse_append, List.reverse_singleton, List.singleton_append, List.reverse_reverse,
      trimBlanks_literalList, hne, splitCommas_literalList, List.map_map, Function.comp_def]
    rw [hparts, allSome_map_some]
    rfl

theorem assembleLine_absorbs_literalList {cs : List Char} (h : ∀ c ∈ cs, c.toNat < 128) :
    assembleLine ("ABSORBS [".toList ++ literalList cs ++ [']']) =
      some (.words (cs.map fun c => BitVec.ofNat 16 (0x2000 + c.toNat))) := by
  have hline := assembleLine_absorbs (c := '[') (d := ']') (by decide) (by decide) (literalList cs)
  rw [← absorbWords_map_charCode h]
  exact hline.trans (congrArg _ (parseByteList_literalList h))

/-! A text between double quotes (R71). -/

theorem parseText_char_cons {c : Char} (h : c.toNat < 128) (hquote : c ≠ '"') (hslash : c ≠ '\\') (rest : List Char) :
    parseText 0 (c :: rest) = (parseText 0 rest).map (charCode c :: ·) := by
  have hq : c.toNat ≠ 0x22 := fun he => hquote (Char.toNat_inj.mp he)
  have hs : c.toNat ≠ 0x5C := fun he => hslash (Char.toNat_inj.mp he)
  rw [parseText, if_neg hq, if_neg hs]
  exact if_pos h

theorem parseText_chars {cs : List Char} (h : ∀ c ∈ cs, c.toNat < 128 ∧ c ≠ '"' ∧ c ≠ '\\') :
    parseText 0 (cs ++ ['"']) = some (cs.map charCode) := by
  induction cs with
  | nil => rfl
  | cons c cs ih =>
    obtain ⟨⟨hlt, hquote, hslash⟩, hcs⟩ := List.forall_mem_cons.mp h
    rw [List.cons_append, parseText_char_cons hlt hquote hslash, ih hcs, Option.map_some, List.map_cons]

theorem parseEscape_hex (b : Byte) (rest : List Char) :
    parseEscape ('x' :: hexText (b.toNat / 16) :: hexText (b.toNat % 16) :: rest) = some b := by
  simp only [parseEscape, hexDigit_hexText (highDigit_lt b), hexDigit_hexText (lowDigit_lt b), byte_of_hexDigits]

/-- An escape gives its byte, and its three characters after the backslash are passed over. -/
theorem parseText_escape (b : Byte) (rest : List Char) :
    parseText 0 ('\\' :: 'x' :: hexText (b.toNat / 16) :: hexText (b.toNat % 16) :: rest) =
      (parseText 0 rest).map (b :: ·) := by
  rw [parseText, if_neg (by decide), if_pos (by decide), parseEscape_hex]
  rfl

theorem parseText_escapedText (bytes : List Byte) : parseText 0 (escapedText bytes ++ ['"']) = some bytes := by
  induction bytes with
  | nil => rfl
  | cons b bytes ih =>
    rw [escapedText, List.append_assoc]
    exact (parseText_escape b _).trans (congrArg _ ih)

theorem assembleLine_absorbs_text {text : List Char} {bytes : List Byte} (h : parseText 0 (text ++ ['"']) = some bytes) :
    assembleLine ("ABSORBS ".toList ++ ['"'] ++ text ++ ['"']) = some (.words (absorbWords bytes)) := by
  have hline := assembleLine_absorbs (c := '"') (d := '"') (by decide) (by decide) text
  exact hline.trans (congrArg _ h)

/-- Settles O50: each of the three operands is read as its bytes, in order. -/
theorem absorbsExpandsToOneAbsorbPerByte : Obligations.AbsorbsExpandsToOneAbsorbPerByte := by
  refine ⟨fun cs h => assembleLine_absorbs_literalList h, fun cs h => ?_, fun bytes => ?_⟩
  · rw [← absorbWords_map_charCode fun c hc => (h c hc).1]
    exact assembleLine_absorbs_text (parseText_chars h)
  · rw [← absorbWords_eq_map_ofNat]
    exact assembleLine_absorbs_text (parseText_escapedText bytes)

end Sys2Proof.Machine
end

section
/-! PROOFS. The Width-32 Core's algebra: `mul32` and its inverse (40_width32_core.md R82), and zero bytes folded
into a zero accumulator (R87). -/

namespace Sys2Proof.Machine

/-! Multiplying by a constant that has an inverse, at any width. -/

theorem mul_mul_of_mul_eq_one {n : Nat} {c d : BitVec n} (h : c * d = 1#n) (a : BitVec n) : a * c * d = a := by
  rw [BitVec.mul_assoc, h, BitVec.mul_one]

theorem bijective_of_mul_eq_one {n : Nat} {c d : BitVec n} (h : c * d = 1#n) : Function.Bijective (· * c) :=
  Function.bijective_iff_has_inverse.mpr
    ⟨(· * d), mul_mul_of_mul_eq_one h, mul_mul_of_mul_eq_one ((BitVec.mul_comm d c).trans h)⟩

/-- `PRIME32` and the constant of R82 are inverse words. -/
theorem prime32_mul_inverse : 0x01000193#32 * 0x359C449B#32 = 1#32 := by decide

theorem mul32_bijective : Function.Bijective mul32 := by
  rw [funext mul32_eq_mul]
  exact bijective_of_mul_eq_one prime32_mul_inverse

theorem mul32_mul_inverse (a : Word32) : mul32 a * 0x359C449B#32 = a := by
  rw [mul32_eq_mul, mul_mul_of_mul_eq_one prime32_mul_inverse]

/-- Settles O21: the inverse word undoes the product on both sides. -/
theorem mul32IsABijectionWithItsInverse : Obligations.Mul32IsABijectionWithItsInverse :=
  ⟨mul32_bijective, mul32_mul_inverse, by decide, fun _ _ => mul32_bijective.injective.ne⟩

/-- An element that leaves an accumulator as it is leaves no trace in a fold, however often it is repeated. -/
theorem foldl_replicate_of_fixed {α β : Type} {f : α → β → α} {a : α} {b : β} (h : f a b = a) (k : Nat) :
    (List.replicate k b).foldl f a = a := by
  induction k with
  | zero => rfl
  | succ k ih => rw [List.replicate_succ, List.foldl_cons, h, ih]

theorem fold32_append (ord : StepOrder) (seed : Word32) (xs ys : List Byte) :
    fold32 ord seed (xs ++ ys) = fold32 ord (fold32 ord seed xs) ys :=
  List.foldl_append

/-- Under MTX a zero byte takes a zero accumulator to zero: the product is zero, and so is the byte. -/
theorem step32_mtx_zero_zero : step32 .mtx 0#32 0x00#8 = 0#32 := by decide

theorem fold32_mtx_zero_zeroBytes (k : Nat) : fold32 .mtx 0#32 (List.replicate k 0x00#8) = 0#32 :=
  foldl_replicate_of_fixed step32_mtx_zero_zero k

/-- Settles O26: zero is a fixed point of the step on a zero byte, and the two fixed folds are evaluated. -/
theorem leadingZeroBytesLeaveNoTraceAtWidth32 : Obligations.LeadingZeroBytesLeaveNoTraceAtWidth32 := by
  refine ⟨fun k bytes => ?_, fold32_mtx_zero_zeroBytes, ?letterA, ?letterAThenZero⟩
  · rw [fold32_append, fold32_mtx_zero_zeroBytes]
  case letterA => decide
  case letterAThenZero => decide

end Sys2Proof.Machine
end

section
/-! PROOFS. The Width-64 Core (41_width64_core.md): `mul64` and its inverse (R92), the dual-word and limb multipliers
(R93, R94), the dual-word step (R95, R96), and zero bytes folded into a zero accumulator (R97). -/

namespace Sys2Proof.Machine

/-! The inverse of `mul64` (R92). -/

/-- `PRIME64` and the constant of R92 are inverse words. -/
theorem prime64_mul_inverse : 0x100000001B3#64 * 0xCE965057AFF6957B#64 = 1#64 := by decide

theorem mul64_bijective : Function.Bijective mul64 := by
  rw [funext mul64_eq_mul]
  exact bijective_of_mul_eq_one prime64_mul_inverse

theorem mul64_mul_inverse (a : Word64) : mul64 a * 0xCE965057AFF6957B#64 = a := by
  rw [mul64_eq_mul, mul_mul_of_mul_eq_one prime64_mul_inverse]

/-- Settles O22: the inverse word undoes the product on both sides. -/
theorem mul64IsABijectionWithItsInverse : Obligations.Mul64IsABijectionWithItsInverse :=
  ⟨mul64_bijective, mul64_mul_inverse⟩

/-! The multiplier on two 32-bit words (R93). -/

theorem mul64_joinWords_toNat (hi lo : Word32) :
    (mul64 (joinWords hi lo)).toNat = (hi.toNat * 2 ^ 32 + lo.toNat) * 0x100000001B3 % 2 ^ 64 := by
  rw [mul64, BitVec.toNat_ofNat, joinWords_toNat, prime64]

/-- `LO'` is the low word of the partial product of `LO`. -/
theorem mul64dw_lo_toNat (hi lo : Word32) : (mul64dw hi lo).2.toNat = lo.toNat * 0x1B3 % 2 ^ 32 :=
  BitVec.toNat_ofNat ..

/-- `HI'` is the sum modulo 2^32 of the partial product of `HI`, of `LO` shifted by bit 40 of `PRIME64`, and of the carry
out of `LO'`. -/
theorem mul64dw_hi_toNat (hi lo : Word32) :
    (mul64dw hi lo).1.toNat =
      (hi.toNat * 0x1B3 + lo.toNat * 2 ^ 8 % 2 ^ 32 + lo.toNat * 0x1B3 / 2 ^ 32) % 2 ^ 32 := by
  rw [mul64dw, BitVec.toNat_ofNat, Nat.shiftLeft_eq, Nat.shiftRight_eq_div_pow, prime64Lo]

/-- The two words are the product: what the shift of `LO` and the sum in `HI'` lose are multiples of 2^64. -/
theorem mul64dw_toNat (hi lo : Word32) :
    (mul64dw hi lo).1.toNat * 2 ^ 32 + (mul64dw hi lo).2.toNat =
      (hi.toNat * 2 ^ 32 + lo.toNat) * 0x100000001B3 % 2 ^ 64 := by
  rw [mul64dw_hi_toNat, mul64dw_lo_toNat]
  omega

theorem joinWords_mul64dw (hi lo : Word32) :
    joinWords (mul64dw hi lo).1 (mul64dw hi lo).2 = mul64 (joinWords hi lo) := by
  apply BitVec.eq_of_toNat_eq
  rw [joinWords_toNat, mul64dw_toNat, mul64_joinWords_toNat]

/-- Settles O23, from the two words as numbers. -/
theorem dualWordMultiplyIsTheTrueProduct : Obligations.DualWordMultiplyIsTheTrueProduct :=
  fun hi lo => ⟨mul64dw_toNat hi lo, joinWords_mul64dw hi lo⟩

/-! The multiplier in 16-bit limbs (R94). -/

/-- Two limbs, the carry out of the lower one added to the upper one, are one 32-bit sum. -/
theorem joinLimbs_carry (upper lower : Nat) :
    joinLimbs (BitVec.ofNat 16 (upper + lower / 2 ^ 16)) (BitVec.ofNat 16 lower) =
      BitVec.ofNat 32 (upper * 2 ^ 16 + lower) := by
  apply BitVec.eq_of_toNat_eq
  rw [joinLimbs_toNat, BitVec.toNat_ofNat, BitVec.toNat_ofNat, BitVec.toNat_ofNat]
  omega

/-- `t1` is the product of `LO` without its low limb, so that the carry out of `t1` is the carry out of `LO'`. -/
theorem limbProduct_carry (lo : Nat) :
    (lo / 2 ^ 16 * 0x1B3 + lo % 2 ^ 16 * 0x1B3 / 2 ^ 16) / 2 ^ 16 = lo * 0x1B3 / 2 ^ 32 := by
  have ht1 : lo / 2 ^ 16 * 0x1B3 + lo % 2 ^ 16 * 0x1B3 / 2 ^ 16 = lo * 0x1B3 / 2 ^ 16 := by omega
  rw [ht1, Nat.div_div_eq_div_mul, ← Nat.pow_add]

/-- Limb by limb the sums are those of R93: `t0` and `t1` add up to the product of `LO`, `t2` and `t3` to the sum in
`HI'`. -/
theorem mul64limbs_eq_mul64dw (hi lo : Word32) : mul64limbs hi lo = mul64dw hi lo := by
  rw [mul64limbs, mul64dw]
  simp only [prime64Lo, Nat.shiftLeft_eq, Nat.shiftRight_eq_div_pow, joinLimbs_carry]
  refine congrArg₂ Prod.mk (BitVec.eq_of_toNat_eq ?high) (BitVec.eq_of_toNat_eq ?low)
  case high =>
    rw [BitVec.toNat_ofNat, BitVec.toNat_ofNat, limbProduct_carry]
    omega
  case low =>
    rw [BitVec.toNat_ofNat, BitVec.toNat_ofNat]
    omega

/-- Every realisation of `MUL64_IMPL` gives the dual-word multiplier's words (00_scope.md R9). -/
theorem mul64By_eq_mul64dw (m : Mul64Impl) (hi lo : Word32) : mul64By m hi lo = mul64dw hi lo := by
  cases m with
  | native => rw [mul64By, ← joinWords_mul64dw, highWord_joinWords, lowWord_joinWords]
  | dualWord => rfl
  | limbs16 => exact mul64limbs_eq_mul64dw hi lo

/-- Settles O24: each realisation gives the dual-word multiplier's words. -/
theorem multiplyRealisationsAreUnobservable : Obligations.MultiplyRealisationsAreUnobservable :=
  ⟨mul64limbs_eq_mul64dw, fun m n hi lo => (mul64By_eq_mul64dw m hi lo).trans (mul64By_eq_mul64dw n hi lo).symm⟩

/-! The step on two 32-bit words (R95, R96). -/

theorem joinWords_xor64dw (hi lo : Word32) (b : Byte) :
    joinWords (xor64dw hi lo b).1 (xor64dw hi lo b).2 = xor64 (joinWords hi lo) b :=
  joinWords_xor_byte hi lo b

theorem joinWords_step64dw (ord : StepOrder) (hi lo : Word32) (b : Byte) :
    joinWords (step64dw ord hi lo b).1 (step64dw ord hi lo b).2 = step64 ord (joinWords hi lo) b := by
  cases ord with
  | mtx => rw [step64dw, joinWords_xor64dw, joinWords_mul64dw, step64]
  | xtm => rw [step64dw, joinWords_mul64dw, joinWords_xor64dw, step64]

/-- Settles O25: each of the step's two parts on the dual word is its part on the value. -/
theorem dualWordStepIsTheTrueStep : Obligations.DualWordStepIsTheTrueStep :=
  fun ord hi lo b => ⟨joinWords_step64dw ord hi lo b, joinWords_xor64dw hi lo b⟩

/-! Zero bytes folded into a zero accumulator (R97). -/

theorem fold64_append (ord : StepOrder) (seed : Word64) (xs ys : List Byte) :
    fold64 ord seed (xs ++ ys) = fold64 ord (fold64 ord seed xs) ys :=
  List.foldl_append

/-- Under MTX a zero byte takes a zero accumulator to zero: the product is zero, and so is the byte. -/
theorem step64_mtx_zero_zero : step64 .mtx 0#64 0x00#8 = 0#64 := by decide

theorem fold64_mtx_zero_zeroBytes (k : Nat) : fold64 .mtx 0#64 (List.replicate k 0x00#8) = 0#64 :=
  foldl_replicate_of_fixed step64_mtx_zero_zero k

/-- Settles O27: the zero bytes leave the zero the sequence then starts from. -/
theorem leadingZeroBytesLeaveNoTraceAtWidth64 : Obligations.LeadingZeroBytesLeaveNoTraceAtWidth64 := by
  intro k bytes
  rw [fold64_append, fold64_mtx_zero_zeroBytes]

end Sys2Proof.Machine
end

section
/-! PROOFS. The reserved bits of a command word under their mask (30_encoding.md R62, R66), and the fault of a word that
sets one. -/

namespace Sys2Proof.Machine

open Sys2Proof.SpecView

/-- A field of a word, back in its place, is the word under the field's mask. -/
theorem setWidth_extractLsb'_shiftLeft {n : Nat} (x : BitVec n) (start len : Nat) :
    (x.extractLsb' start len).setWidth n <<< start = x &&& ((BitVec.allOnes len).setWidth n <<< start) := by
  ext i hi
  by_cases hstart : i < start
  · simp [hstart]
  · have hsub : start + (i - start) = i := by omega
    simp [hstart, hsub, hi, Bool.and_comm]

theorem reservedFV_ne_zero {w : CmdWord} (h : w &&& 0x0FFC#16 ≠ 0#16) : reservedFV w ≠ 0#10 := by
  intro hzero
  refine h ((setWidth_extractLsb'_shiftLeft w 2 10).symm.trans ?_)
  rw [← reservedFV, hzero]
  rfl

theorem reservedFB_ne_zero {w : CmdWord} (h : w &&& 0x0F00#16 ≠ 0#16) : reservedFB w ≠ 0#4 := by
  intro hzero
  refine h ((setWidth_extractLsb'_shiftLeft w 8 4).symm.trans ?_)
  rw [← reservedFB, hzero]
  rfl

theorem decode_of_initWord_reserved {w : CmdWord} (hop : w.toNat / 0x1000 = 1) (h : w &&& 0x0FFC#16 ≠ 0#16) :
    decode w = .error .reservedBits := by
  simp [decode_arith, hop, decodeFV, reservedFV_ne_zero h]

theorem decode_of_absorbWord_reserved {w : CmdWord} (hop : w.toNat / 0x1000 = 2) (h : w &&& 0x0F00#16 ≠ 0#16) :
    decode w = .error .reservedBits := by
  simp [decode_arith, hop, decodeFB, reservedFB_ne_zero h]

/-- A word the decoder faults is recorded with the decoder's cause (60_exceptions.md R172, R174). -/
theorem performWord_recordFault_of_decode_error {w : CmdWord} {s : State} {c : FaultCause} (hf : s.faultFlag = false)
    (hd : decode w = .error c) : performWord w s = .next (recordFault ((causeCode c).setWidth 32) w s) := by
  rw [performWord_of_decode_error hf hd, raiseFault_eq_recordFault]

end Sys2Proof.Machine
end

section
/-! PROOFS. INIT and ABSORB (42_variant_policy.md R110, R113, R115): the state each leaves, in the spec's formulas. -/

namespace Sys2Proof.Machine

open Sys2Proof.SpecView

/-! INIT. -/

/-- Every code but the reserved one is a variant's (30_encoding.md R67). -/
theorem exists_variantCode {v : BitVec 2} (hv : v ≠ 3#2) : ∃ var, variantCode var = v := by
  cases h : variantOfCode v with
  | none => exact absurd ((variantOfCode_eq_none_iff v).mp h) hv
  | some var => exact ⟨var, variantCode_of_variantOfCode h⟩

/-- INIT's effect, every register written out (R113). -/
theorem startCall_eq (v : Variant) (s : State) :
    startCall v s = { s with acc32 := seed32 v, acc64Hi := highWord (seed64 v), acc64Lo := lowWord (seed64 v),
                             status := (s.status &&& 0xFFFFFF9F#32) |||
                               (0x1#32 ||| ((variantCode v).setWidth 32 <<< 5)) } := by
  rw [startCall, selectVariant, setInit_setVar, BitVec.or_assoc]
  rfl

/-- INIT of a variant's code starts a call of the variant at every unfaulted block. -/
theorem exec_init_variantCode {s : State} (hf : s.faultFlag = false) (v : Variant) :
    exec (.init (variantCode v)) s = .next (startCall v s) := by
  rw [exec_of_ready hf (.inr ⟨_, rfl⟩), effectOf, variantOfCode_variantCode]

theorem exec_init_reserved {s : State} (hf : s.faultFlag = false) :
    exec (.init 3#2) s = .next (recordFault 3#32 0x1003#16 s) := by
  rw [exec_of_ready hf (.inr ⟨_, rfl⟩), effectOf_not_wellFormed rfl, raiseFault_eq_recordFault]
  rfl

/-- Settles O14: INIT of each variant by the effect written out, and each fault by the record it leaves. -/
theorem initSeedsBothCoresAndSelectsTheVariant : Obligations.InitSeedsBothCoresAndSelectsTheVariant := by
  intro s
  refine ⟨fun v hf => exec_of_fault _ hf, fun hf =>
    ⟨?orig, ?rev, ?revx, exec_init_reserved hf, fun w hop hres => ?reservedBits⟩⟩
  case orig => exact (exec_init_variantCode hf .orig).trans (congrArg _ (startCall_eq .orig s))
  case rev => exact (exec_init_variantCode hf .rev).trans (congrArg _ (startCall_eq .rev s))
  case revx => exact (exec_init_variantCode hf .revx).trans (congrArg _ (startCall_eq .revx s))
  case reservedBits => exact performWord_recordFault_of_decode_error hf (decode_of_initWord_reserved hop hres)

/-! The steps of the two cores, in the spec's formulas (R112, R115). -/

theorem hashStep32_eq_step32 (var : BitVec 2) : hashStep32 var = step32 (ordering var) := by
  funext a b
  by_cases hvar : var = 2#2 <;>
    simp [hashStep32, ordering, hvar, step32, mul32_eq_mul, xor32, zextByte32]

theorem hashStep64_eq_step64 (var : BitVec 2) : hashStep64 var = step64 (ordering var) := by
  funext a b
  by_cases hvar : var = 2#2 <;>
    simp [hashStep64, ordering, hvar, step64, mul64_eq_mul, xor64, zextByte64]

theorem joinWords_eq_ofNat (hi lo : Word32) : joinWords hi lo = BitVec.ofNat 64 (hi.toNat * 2 ^ 32 + lo.toNat) := by
  rw [← joinWords_toNat, BitVec.ofNat_toNat, BitVec.setWidth_eq]

theorem highWord_eq_ofNat (v : Word64) : highWord v = BitVec.ofNat 32 (v.toNat / 2 ^ 32) := by
  rw [← highWord_toNat, BitVec.ofNat_toNat, BitVec.setWidth_eq]

theorem lowWord_eq_ofNat (v : Word64) : lowWord v = BitVec.ofNat 32 (v.toNat % 2 ^ 32) := by
  rw [← lowWord_toNat, BitVec.ofNat_toNat, BitVec.setWidth_eq]

/-! ABSORB. -/

@[simp] theorem absorbByte_acc64 (b : Byte) (s : State) :
    (absorbByte b s).acc64 = step64 (ordering s.var) s.acc64 b :=
  joinWords_step64dw (ordering s.var) s.acc64Hi s.acc64Lo b

/-- ABSORB's effect, every register written out, the 64-bit core's step on one 64-bit value (R115). -/
theorem absorbByte_eq (b : Byte) (s : State) :
    absorbByte b s = { s with acc32 := hashStep32 s.var s.acc32 b,
                              acc64Hi := highWord (hashStep64 s.var s.acc64 b),
                              acc64Lo := lowWord (hashStep64 s.var s.acc64 b) } := by
  rw [hashStep32_eq_step32, hashStep64_eq_step64, ← absorbByte_acc64, State.acc64, highWord_joinWords,
    lowWord_joinWords]
  rfl

theorem exec_absorb_of_noInit {s : State} (hf : s.faultFlag = false) (hinit : s.initFlag = false) (b : Byte) :
    exec (.absorb b) s = .next (recordFault 4#32 (BitVec.ofNat 16 (0x2000 + b.toNat)) s) := by
  rw [exec_reader (by simp), unlessFaulted_of_noFault hf, requireInit_of_noInit hinit, raiseFault_eq_recordFault,
    encode_absorb_eq_ofNat]
  rfl

theorem exec_absorb_of_init {s : State} (hf : s.faultFlag = false) (hinit : s.initFlag = true) (b : Byte) :
    exec (.absorb b) s = .next (absorbByte b s) :=
  exec_of_ready hf (.inl hinit)

end Sys2Proof.Machine
end

section
/-! PROOFS. The accumulators and the digest of a call as folds of its bytes (42_variant_policy.md R115; 44_dispatch.md
R152), and zero bytes under each variant (R116, R117). -/

namespace Sys2Proof.Machine

open Sys2Proof.SpecView

/-! INIT and the ABSORBs of a call. -/

theorem issueAll_init_absorbWords {s : State} (hf : s.faultFlag = false) (v : Variant) (bytes : List Byte) :
    issueAll (encode (.init (variantCode v)) :: absorbWords bytes) s = .next (absorbedCall v bytes s) := by
  rw [issueAll_cons_of_next _ (performWord_encode_init hf v)]
  exact issueAll_absorbWords (by simpa using hf) (startCall_initFlag v s) bytes

theorem absorbAll_acc64 (bytes : List Byte) (s : State) :
    (absorbAll bytes s).acc64 = fold64 (ordering s.var) s.acc64 bytes := by
  induction bytes generalizing s with
  | nil => rfl
  | cons b bytes ih => rw [absorbAll_cons, ih, absorbByte_acc64, absorbByte_var, fold64, fold64, List.foldl_cons]

/-- A call's 64-bit accumulator: a function of the variant and the bytes. -/
theorem absorbedCall_acc64 (v : Variant) (bytes : List Byte) (s : State) :
    (absorbedCall v bytes s).acc64 = fold64 (ordering (variantCode v)) (seed64 v) bytes := by
  simp [absorbedCall, absorbAll_acc64]

theorem seedOf32_variantCode (v : Variant) : seedOf32 (variantCode v) = seed32 v := by cases v <;> rfl

theorem seedOf64_variantCode (v : Variant) : seedOf64 (variantCode v) = seed64 v := by cases v <;> rfl

/-- Settles O15: one ABSORB by its effect written out, and a sequence by the folds a call leaves. -/
theorem absorbStepsBothCores : Obligations.AbsorbStepsBothCores := by
  refine ⟨fun b s => ⟨fun hf => exec_of_fault _ hf, fun hf hinit => exec_absorb_of_noInit hf hinit b,
    fun hf hinit => ?absorbs, fun w hf hop hres => ?reservedBits⟩, fun v bytes s hv hf => ?sequence⟩
  case absorbs =>
    rw [exec_absorb_of_init hf hinit, absorbByte_eq, highWord_eq_ofNat, lowWord_eq_ofNat, State.acc64,
      joinWords_eq_ofNat]
  case reservedBits => exact performWord_recordFault_of_decode_error hf (decode_of_absorbWord_reserved hop hres)
  case sequence =>
    obtain ⟨var, rfl⟩ := exists_variantCode hv
    refine ⟨_, issueAll_init_absorbWords hf var bytes, ?_, ?_⟩
    · rw [absorbedCall_acc32, hashStep32_eq_step32, seedOf32_variantCode, fold32]
    · rw [← joinWords_toNat, ← State.acc64, absorbedCall_acc64, hashStep64_eq_step64, seedOf64_variantCode, fold64]

/-! The digest of a call. -/

/-- The digest of a byte sequence: the digits of its fold from the variant's seed (44_dispatch.md R152). -/
def foldDigest (v : Variant) (w : Width) (bytes : List Byte) : List Byte :=
  match w with
  | .w32 => hexBytes 8 (fold32 (ordering (variantCode v)) (seed32 v) bytes).toNat
  | .w64 => hexBytes 16 (fold64 (ordering (variantCode v)) (seed64 v) bytes).toNat

/-- DIGEST after a call's ABSORBs leaves that digest. -/
theorem effectOf_digestInstr_digest (v : Variant) (w : Width) (bytes : List Byte) (s : State) :
    (effectOf (digestInstr w) (absorbedCall v bytes s)).digest = foldDigest v w bytes := by
  cases w with
  | w32 =>
    rw [foldDigest, ← absorbedCall_acc32 v bytes s]
    exact effectOf_digest32_dout _
  | w64 =>
    rw [foldDigest, ← absorbedCall_acc64 v bytes s, ← effectOf_digest64_dout]
    exact List.take_of_length_le (by simp [digestInstr, effectOf])

theorem hashResult_of_noFault {s : State} (hf : s.faultFlag = false) : hashResult s = .next ⟨s.digest, s⟩ := by
  simp [hashResult, hf]

/-- A dispatch operation at an unfaulted block gives the host that digest. -/
theorem hashBytes_foldDigest {s : State} (hf : s.faultFlag = false) (v : Variant) (w : Width) (bytes : List Byte) :
    hashBytes v w bytes s =
      .next ⟨foldDigest v w bytes, effectOf (digestInstr w) (absorbedCall v bytes s)⟩ := by
  have hread := readsAccumulator_digestInstr w
  rw [hashBytes, hashWords, issueAll_call hread hf v bytes, ← effectOf_digestInstr_digest v w bytes s]
  exact hashResult_of_noFault (effectOf_call_faultFlag hread hf v bytes)

/-! Zero bytes under REV and REVX (R117): the XOR of a zero byte does nothing, so the two orderings agree. -/

theorem xor32_zero (a : Word32) : xor32 a 0x00#8 = a := by simp [xor32, zextByte32]

theorem xor64_zero (a : Word64) : xor64 a 0x00#8 = a := by simp [xor64, zextByte64]

theorem step32_mtx_eq_xtm_zero (a : Word32) : step32 .mtx a 0x00#8 = step32 .xtm a 0x00#8 := by
  rw [step32, step32, xor32_zero, xor32_zero]

theorem step64_mtx_eq_xtm_zero (a : Word64) : step64 .mtx a 0x00#8 = step64 .xtm a 0x00#8 := by
  rw [step64, step64, xor64_zero, xor64_zero]

/-- Two steps that agree on one element agree on any number of it. -/
theorem foldl_replicate_congr {α β : Type} {f g : α → β → α} {b : β} (h : ∀ a, f a b = g a b) (a : α) (k : Nat) :
    (List.replicate k b).foldl f a = (List.replicate k b).foldl g a := by
  refine List.foldl_ext f g a fun x c hc => ?_
  rw [List.eq_of_mem_replicate hc, h]

theorem foldDigest_rev_eq_revx_zeroBytes (w : Width) (k : Nat) :
    foldDigest .rev w (List.replicate k 0x00#8) = foldDigest .revx w (List.replicate k 0x00#8) := by
  cases w with
  | w32 => exact congrArg (fun a => hexBytes 8 (BitVec.toNat a)) (foldl_replicate_congr step32_mtx_eq_xtm_zero _ k)
  | w64 => exact congrArg (fun a => hexBytes 16 (BitVec.toNat a)) (foldl_replicate_congr step64_mtx_eq_xtm_zero _ k)

/-- Settles O43: the two calls' digests are equal folds, and the fold of no byte is the seed. -/
theorem revAndRevxAgreeOnZeroBytes : Obligations.RevAndRevxAgreeOnZeroBytes := by
  refine ⟨rfl, rfl, rfl, rfl, fun k w s hf => ?_⟩
  have hrevx := hashBytes_foldDigest hf .revx w (List.replicate k 0x00#8)
  rw [← foldDigest_rev_eq_revx_zeroBytes] at hrevx
  refine ⟨_, _, _, hashBytes_foldDigest hf .rev w _, hrevx, ?_⟩
  rintro rfl
  cases w with
  | w32 => rfl
  | w64 => rfl

/-! Zero bytes under ORIG (R116): its seeds are zero, and its ordering MTX. -/

theorem foldDigest_orig_leadingZeroBytes (w : Width) (k : Nat) (bytes : List Byte) :
    foldDigest .orig w (List.replicate k 0x00#8 ++ bytes) = foldDigest .orig w bytes := by
  cases w with
  | w32 =>
    rw [foldDigest, fold32_append]
    exact congrArg (fun a => hexBytes 8 (fold32 .mtx a bytes).toNat) (fold32_mtx_zero_zeroBytes k)
  | w64 =>
    rw [foldDigest, fold64_append]
    exact congrArg (fun a => hexBytes 16 (fold64 .mtx a bytes).toNat) (fold64_mtx_zero_zeroBytes k)

theorem absorbedCall_orig_zeroBytes (k : Nat) (s : State) :
    (absorbedCall .orig (List.replicate k 0x00#8) s).acc32 = 0#32 ∧
    (absorbedCall .orig (List.replicate k 0x00#8) s).acc64 = 0#64 :=
  ⟨(absorbedCall_acc32 ..).trans (fold32_mtx_zero_zeroBytes k),
    (absorbedCall_acc64 ..).trans (fold64_mtx_zero_zeroBytes k)⟩

/-- Under every variant, INIT and one zero byte run, and leave the seeds and then one step from them. -/
theorem exec_init_absorb_zero {s : State} (hf : s.faultFlag = false) (v : Variant) :
    ∃ t u, exec (.init (variantCode v)) s = .next t ∧ exec (.absorb 0x00#8) t = .next u ∧
      t.acc32 = seed32 v ∧ t.acc64 = seed64 v ∧
      u.acc32 = step32 (ordering (variantCode v)) (seed32 v) 0x00#8 ∧
      u.acc64 = step64 (ordering (variantCode v)) (seed64 v) 0x00#8 :=
  ⟨_, _, exec_init_variantCode hf v, exec_absorb_of_init (by simpa using hf) (startCall_initFlag v s) 0x00#8,
    startCall_acc32 v s, startCall_acc64 v s, by simp, by simp⟩

/-- Settles O44: under ORIG the zero bytes leave the zero the fold starts from; the two other variants' steps are
evaluated. -/
theorem origIgnoresLeadingZeroBytes : Obligations.OrigIgnoresLeadingZeroBytes := by
  refine ⟨fun k w bytes s hf => ?leading, fun k s hf => ⟨_, issueAll_init_absorbWords hf .orig _, ?zeros⟩,
    fun v s hv hf => ?changed⟩
  case leading =>
    have hleading := hashBytes_foldDigest hf .orig w (List.replicate k 0x00#8 ++ bytes)
    rw [foldDigest_orig_leadingZeroBytes] at hleading
    exact ⟨_, _, _, hleading, hashBytes_foldDigest hf .orig w bytes⟩
  case zeros =>
    obtain ⟨h32, h64⟩ := absorbedCall_orig_zeroBytes k s
    refine ⟨h32, ?_, ?_⟩
    · exact (highWord_joinWords ..).symm.trans (congrArg highWord h64)
    · exact (lowWord_joinWords ..).symm.trans (congrArg lowWord h64)
  case changed =>
    obtain rfl | rfl := hv
    · exact exec_init_absorb_zero hf .rev
    · exact exec_init_absorb_zero hf .revx

end Sys2Proof.Machine
end

section
/-! PROOFS. The characters of a digest (00_scope.md R14; 43_hex_encoder.md R131, R132): the direct rendering at width 64,
the alphabet, and that the characters determine the word. -/

namespace Sys2Proof.Machine

/-! `hexchar` (R14). -/

theorem hexchar_mem_digits (n : BitVec 4) : hexchar n ∈ "0123456789abcdef".toList := by
  revert n
  decide

theorem hexchar_injective : Function.Injective hexchar := by
  intro m n
  revert m n
  decide

/-! Character `i` of `hex16`, by the word it stands in (R131). -/

theorem extractLsb'_joinWords_high {hi lo : Word32} {start : Nat} (h : 32 ≤ start) :
    (joinWords hi lo).extractLsb' start 4 = hi.extractLsb' (start - 32) 4 :=
  BitVec.extractLsb'_append_eq_of_le h

theorem extractLsb'_joinWords_low {hi lo : Word32} {start : Nat} (h : start + 4 ≤ 32) :
    (joinWords hi lo).extractLsb' start 4 = lo.extractLsb' start 4 :=
  BitVec.extractLsb'_append_eq_of_add_le h

theorem hex16_getElem? (hi lo : Word32) {i : Nat} (h : i < 16) :
    (hex16 hi lo)[i]? = some (hexchar ((joinWords hi lo).extractLsb' (60 - 4 * i) 4)) := by
  by_cases h8 : i < 8
  · rw [hex16, List.getElem?_append_left (by simpa using h8), hex8_getElem? hi i h8,
      extractLsb'_joinWords_high (by omega), show 60 - 4 * i - 32 = 28 - 4 * i by omega]
  · rw [hex16, List.getElem?_append_right (by simpa using h8), hex8_length, hex8_getElem? lo _ (by omega),
      extractLsb'_joinWords_low (by omega), show 28 - 4 * (i - 8) = 60 - 4 * i by omega]

/-- Settles O28: the first eight characters are the digits of the high word, the others those of the low word. -/
theorem hex16IsTheDirectRendering : Obligations.Hex16IsTheDirectRendering :=
  fun hi lo => ⟨rfl, hex16_length hi lo, fun _ h => hex16_getElem? hi lo h⟩

/-! The alphabet (R132). -/

theorem mem_digits_of_mem_hex8 {w : Word32} {c : Char} (h : c ∈ hex8 w) : c ∈ "0123456789abcdef".toList := by
  obtain ⟨i, -, rfl⟩ := List.mem_map.mp h
  exact hexchar_mem_digits _

theorem mem_digits_of_mem_hex16 {hi lo : Word32} {c : Char} (h : c ∈ hex16 hi lo) :
    c ∈ "0123456789abcdef".toList :=
  (List.mem_append.mp h).elim mem_digits_of_mem_hex8 mem_digits_of_mem_hex8

/-! A rendering determines its word (R132). -/

/-- Equal renderings have equal hex digits. -/
theorem extractLsb'_eq_of_hex8_eq {a b : Word32} (h : hex8 a = hex8 b) {i : Nat} (hi : i < 8) :
    a.extractLsb' (28 - 4 * i) 4 = b.extractLsb' (28 - 4 * i) 4 := by
  have hchar : (hex8 a)[i]? = (hex8 b)[i]? := by rw [h]
  rw [hex8_getElem? a i hi, hex8_getElem? b i hi] at hchar
  exact hexchar_injective (Option.some.inj hchar)

/-- Bit `j` of a word is bit `j % 4` of the digit that character `7 - j / 4` renders. -/
theorem hex8_injective : Function.Injective hex8 := by
  intro a b h
  apply BitVec.eq_of_getLsbD_eq
  intro j hj
  have hdigit := congrArg (·.getLsbD (j % 4)) (extractLsb'_eq_of_hex8_eq h (i := 7 - j / 4) (by omega))
  have hpos : 28 - 4 * (7 - j / 4) + j % 4 = j := by omega
  simpa [hpos, Nat.mod_lt] using hdigit

theorem hex16_injective {hi lo hi' lo' : Word32} (h : hex16 hi lo = hex16 hi' lo') : hi = hi' ∧ lo = lo' := by
  obtain ⟨hhi, hlo⟩ := List.append_inj h (by simp)
  exact ⟨hex8_injective hhi, hex8_injective hlo⟩

/-- Settles O29, from the digits' alphabet and the injectivity at both widths. -/
theorem hexRenderingIsInjective : Obligations.HexRenderingIsInjective := by
  refine ⟨fun w => ⟨hex8_length w, fun _ => mem_digits_of_mem_hex8⟩,
    fun hi lo => ⟨hex16_length hi lo, fun _ => mem_digits_of_mem_hex16⟩,
    fun _ _ h => hex8_injective h, fun hi lo hi' lo' h => ?_⟩
  obtain ⟨rfl, rfl⟩ := hex16_injective h
  rfl

end Sys2Proof.Machine
end

section
/-! PROOFS. The words of the commands without an operand, and a reading command before INIT (30_encoding.md R62, R66;
60_exceptions.md R171): the records their faults leave. -/

namespace Sys2Proof.Machine

open Sys2Proof.SpecView

theorem reservedFW_ne_zero {w : CmdWord} (h : w &&& 0x0FFE#16 ≠ 0#16) : reservedFW w ≠ 0#11 := by
  intro hzero
  refine h ((setWidth_extractLsb'_shiftLeft w 1 11).symm.trans ?_)
  rw [← reservedFW, hzero]
  rfl

/-- The opcodes of sub-layout FW are 3 and 4. -/
theorem decode_of_widthWord_reserved {w : CmdWord} (hop : w.toNat / 0x1000 = 3 ∨ w.toNat / 0x1000 = 4)
    (h : w &&& 0x0FFE#16 ≠ 0#16) : decode w = .error .reservedBits := by
  obtain hop | hop := hop
  · simp [decode_arith, hop, decodeFW, reservedFW_ne_zero h]
  · simp [decode_arith, hop, decodeFW, reservedFW_ne_zero h]

theorem performWord_of_widthWord_reserved {w : CmdWord} {s : State} (hf : s.faultFlag = false)
    (hop : w.toNat / 0x1000 = 3 ∨ w.toNat / 0x1000 = 4) (h : w &&& 0x0FFE#16 ≠ 0#16) :
    performWord w s = .next (recordFault 2#32 w s) :=
  performWord_recordFault_of_decode_error hf (decode_of_widthWord_reserved hop h)

/-- A command that reads an accumulator, at an unfaulted block before INIT. -/
theorem exec_reader_of_noInit {i : Instr} {s : State} (hi : readsAccumulator i = true) (hf : s.faultFlag = false)
    (hinit : s.initFlag = false) : exec i s = .next (recordFault 4#32 (encode i) s) := by
  rw [exec_reader (readsAccumulator_iff.mp hi), unlessFaulted_of_noFault hf, requireInit_of_noInit hinit,
    raiseFault_eq_recordFault]
  rfl

end Sys2Proof.Machine
end

section
/-! PROOFS. DIGEST32, DIGEST64, RDACC32 and RDACC64 (43_hex_encoder.md R134 to R138): the state each leaves, in the spec's
formulas. -/

namespace Sys2Proof.Machine

open Sys2Proof.SpecView

/-! DIGEST: DOUT byte by byte. -/

theorem hexBytes_getElem? (len n i : Nat) :
    (hexBytes len n)[i]? = if i < len then some (hexByte (n / 16 ^ (len - 1 - i) % 16)) else none := by
  by_cases h : i < len <;> simp [hexBytes, h]

/-- DOUT after a DIGEST of a number's digits: the digits, and 0x00 behind them. -/
theorem writeDigest_hexBytes_dout (count n : Nat) (len : BitVec 5) (s : State) (i : Fin 16) :
    (writeDigest (hexBytes count n) len s).dout[i] =
      if i.val < count then hexByte (n / 16 ^ (count - 1 - i.val) % 16) else 0x00#8 := by
  by_cases h : i.val < count <;> simp [hexBytes_getElem?, h]

theorem effectOf_digest32_eq (s : State) : effectOf .digest32 s = writeDigest (hexBytes 8 s.acc32.toNat) 8#5 s := by
  rw [effectOf, hex8_charCodes]

theorem effectOf_digest64_eq (s : State) :
    effectOf .digest64 s = writeDigest (hexBytes 16 (s.acc64Hi.toNat * 2 ^ 32 + s.acc64Lo.toNat)) 16#5 s := by
  rw [effectOf, hex16_charCodes, joinWords_toNat]

/-- Settles O16: DOUT holds the digits of ACC32 where DIGEST32 runs, and each fault is recorded. -/
theorem digest32WritesEightHexCharacters : Obligations.Digest32WritesEightHexCharacters := by
  intro s
  refine ⟨exec_of_fault _, exec_reader_of_noInit (i := .digest32) rfl, fun hf hinit => ?runs,
    fun w hf hop hres => performWord_of_widthWord_reserved hf (.inl hop) hres⟩
  case runs =>
    have hexec := exec_of_ready (i := .digest32) hf (.inl hinit)
    rw [effectOf_digest32_eq] at hexec
    exact ⟨_, hexec, writeDigest_hexBytes_dout 8 s.acc32.toNat 8#5 s⟩

/-- Settles O17: DOUT holds the digits of the 64-bit accumulator where DIGEST64 runs, and each fault is recorded. -/
theorem digest64WritesSixteenHexCharacters : Obligations.Digest64WritesSixteenHexCharacters := by
  intro s
  refine ⟨exec_of_fault _, exec_reader_of_noInit (i := .digest64) rfl, fun hf hinit => ?runs,
    fun w hf hop hres => performWord_of_widthWord_reserved hf (.inl hop) hres⟩
  case runs =>
    have hexec := exec_of_ready (i := .digest64) hf (.inl hinit)
    rw [effectOf_digest64_eq] at hexec
    exact ⟨_, hexec, fun i => (writeDigest_hexBytes_dout 16 _ 16#5 s i).trans (if_pos i.isLt)⟩

/-! RDACC. -/

theorem zextWord64_eq_ofNat (w : Word32) : zextWord64 w = BitVec.ofNat 64 w.toNat :=
  (BitVec.ofNat_toNat 64 w).symm

@[simp] theorem lowWord_zextWord64 (w : Word32) : lowWord (zextWord64 w) = w := by
  rw [lowWord, zextWord64, BitVec.extractLsb'_setWidth_of_le (by decide), BitVec.extractLsb'_eq_self]

/-- Settles O18: RES is ACC32 zero-extended where RDACC32 runs, and each fault is recorded. -/
theorem rdacc32CopiesAcc32ZeroExtended : Obligations.Rdacc32CopiesAcc32ZeroExtended := by
  intro s
  refine ⟨exec_of_fault _, exec_reader_of_noInit (i := .rdacc32) rfl, fun hf hinit => ?runs,
    fun w hf hop hres => performWord_of_widthWord_reserved hf (.inr hop) hres⟩
  case runs =>
    rw [← zextWord64_eq_ofNat]
    exact exec_of_ready hf (.inl hinit)

/-- Settles O19: RES is the pair of the two words where RDACC64 runs, and each fault is recorded. -/
theorem rdacc64CopiesBothWords : Obligations.Rdacc64CopiesBothWords := by
  intro s
  refine ⟨exec_of_fault _, exec_reader_of_noInit (i := .rdacc64) rfl, fun hf hinit => ?runs,
    fun w hf hop hres => performWord_of_widthWord_reserved hf (.inr hop) hres⟩
  case runs =>
    rw [← joinWords_eq_ofNat]
    exact exec_of_ready hf (.inl hinit)

/-! DIGEST renders what RDACC reads (R138). -/

theorem effectOf_digest32_renders_rdacc32 (s : State) :
    (effectOf .digest32 s).dout.toList.take 8 = (hex8 (lowWord (effectOf .rdacc32 s).res)).map charCode := by
  rw [effectOf_digest32_dout, hex8_charCodes, effectOf, writeRes_res, lowWord_zextWord64]

theorem effectOf_digest64_renders_rdacc64 (s : State) :
    (effectOf .digest64 s).dout.toList =
      (hex16 (highWord (effectOf .rdacc64 s).res) (lowWord (effectOf .rdacc64 s).res)).map charCode := by
  rw [effectOf_digest64_dout, hex16_charCodes, joinWords_high_low, effectOf, writeRes_res]

/-- Settles O30: the two commands of a width run, and their effects agree. -/
theorem digestRendersWhatRdaccReads : Obligations.DigestRendersWhatRdaccReads := fun s hf hinit =>
  ⟨⟨_, _, exec_of_ready hf (.inl hinit), exec_of_ready hf (.inl hinit), effectOf_digest32_renders_rdacc32 s⟩,
    ⟨_, _, exec_of_ready hf (.inl hinit), exec_of_ready hf (.inl hinit), effectOf_digest64_renders_rdacc64 s⟩⟩

end Sys2Proof.Machine
end

section
/-! PROOFS. The dispatch operations (44_dispatch.md R151 to R159): the words one issues, the digest it gives, and what a
faulted block does with it. -/

namespace Sys2Proof.Machine

open Sys2Proof.SpecView

/-! The words of a dispatch operation (R151, R163). -/

theorem hashWords_eq_ofNat (v : Variant) (w : Width) (bytes : List Byte) :
    hashWords v w bytes = [BitVec.ofNat 16 (0x1000 + (variantCode v).toNat)] ++
      (bytes.map fun b => BitVec.ofNat 16 (0x2000 + b.toNat)) ++ [encode (digestInstr w)] := by
  rw [hashWords, encode_init_eq_ofNat, absorbWords_eq_map_ofNat]
  rfl

theorem hashWords_length (v : Variant) (w : Width) (bytes : List Byte) :
    (hashWords v w bytes).length = bytes.length + 2 := by
  simp [hashWords_eq_ofNat]

/-- Settles O36, from the words of INIT and ABSORB as numbers. -/
theorem dispatchIssuesLenPlusTwoCommands : Obligations.DispatchIssuesLenPlusTwoCommands := fun v bytes =>
  ⟨hashWords_eq_ofNat v .w32 bytes, hashWords_eq_ofNat v .w64 bytes, hashWords_length v .w32 bytes,
    hashWords_length v .w64 bytes⟩

/-! The digest an unfaulted block gives (R152 to R156). -/

theorem exists_hashBytes_of_foldDigest_eq {s : State} (hf : s.faultFlag = false) {v : Variant} {w : Width}
    {bytes d : List Byte} (hd : foldDigest v w bytes = d) : ∃ t, hashBytes v w bytes s = .next ⟨d, t⟩ := by
  subst hd
  exact ⟨_, hashBytes_foldDigest hf v w bytes⟩

theorem foldDigest_w32_eq_hashStep32 (v : Variant) (bytes : List Byte) :
    foldDigest v .w32 bytes =
      hexBytes 8 (bytes.foldl (hashStep32 (variantCode v)) (seedOf32 (variantCode v))).toNat := by
  rw [foldDigest, fold32, hashStep32_eq_step32, seedOf32_variantCode]

theorem foldDigest_w64_eq_hashStep64 (v : Variant) (bytes : List Byte) :
    foldDigest v .w64 bytes =
      hexBytes 16 (bytes.foldl (hashStep64 (variantCode v)) (seedOf64 (variantCode v))).toNat := by
  rw [foldDigest, fold64, hashStep64_eq_step64, seedOf64_variantCode]

/-- Settles O37: the operation's digest is that of the model's folds, whose steps are the spec's. -/
theorem dispatchComputesTheHash : Obligations.DispatchComputesTheHash := fun v bytes _ hf =>
  ⟨exists_hashBytes_of_foldDigest_eq hf (foldDigest_w32_eq_hashStep32 v bytes),
    exists_hashBytes_of_foldDigest_eq hf (foldDigest_w64_eq_hashStep64 v bytes)⟩

/-- Settles O39: the digest is a function of the variant, the width and the bytes. -/
theorem dispatchIsDeterministic : Obligations.DispatchIsDeterministic := fun v w bytes _ _ hf hf' =>
  ⟨_, _, _, hashBytes_foldDigest hf v w bytes, hashBytes_foldDigest hf' v w bytes⟩

theorem hexBytes_length (len n : Nat) : (hexBytes len n).length = len := by simp [hexBytes]

/-- Settles O40: a digest is so many hex digits of a number, whatever the number. -/
theorem digestLengthIsFixedByTheWidth : Obligations.DigestLengthIsFixedByTheWidth := fun v bytes _ hf =>
  ⟨⟨_, hashBytes_foldDigest hf v .w32 bytes, hexBytes_length 8 _⟩,
    ⟨_, hashBytes_foldDigest hf v .w64 bytes, hexBytes_length 16 _⟩⟩

/-! A dispatch operation at a faulted block (R153; 60_exceptions.md R173). -/

theorem issueAll_of_fault {s : State} (hf : s.faultFlag = true) (ws : List CmdWord) : issueAll ws s = .next s := by
  induction ws with
  | nil => rfl
  | cons w ws ih => rw [issueAll_cons_of_next ws (performWord_of_fault hf), ih]

theorem hashResult_of_fault {s : State} (hf : s.faultFlag = true) :
    hashResult s = .fault (.commandFaulted s.cause s.fcmd) := by
  simp [hashResult, hf]

theorem hashBytes_of_fault {s : State} (hf : s.faultFlag = true) (v : Variant) (w : Width) (bytes : List Byte) :
    hashBytes v w bytes s = .fault (.commandFaulted s.cause s.fcmd) := by
  rw [hashBytes, issueAll_of_fault hf]
  exact hashResult_of_fault hf

/-- Settles O38: an unfaulted block runs the whole call, and a faulted one ignores its commands and fails the last
check. -/
theorem dispatchNeverFaultsUnlessItStartsFaulted : Obligations.DispatchNeverFaultsUnlessItStartsFaulted :=
  fun v w bytes _ =>
    ⟨fun hf => ⟨_, hashBytes_foldDigest hf v w bytes,
        effectOf_call_faultFlag (readsAccumulator_digestInstr w) hf v bytes⟩,
      fun hf => ⟨issueAll_of_fault hf _, hashBytes_of_fault hf v w bytes⟩⟩

/-! One sequence of ABSORBs for both widths (R159): DIGEST64 writes all that DIGEST32 has written, and reads nothing of
it. -/

theorem effectOf_digest64_digest32 (s : State) : effectOf .digest64 (effectOf .digest32 s) = effectOf .digest64 s := rfl

/-- DIGEST64 runs after a width-32 call, and leaves what it leaves in its place. -/
theorem exec_digest64_after_digest32 {s : State} (hf : s.faultFlag = false) (v : Variant) (bytes : List Byte) :
    exec .digest64 (effectOf .digest32 (absorbedCall v bytes s)) =
      .next (effectOf .digest64 (absorbedCall v bytes s)) := by
  have hf32 := effectOf_call_faultFlag (i := .digest32) rfl hf v bytes
  have hinit32 : (effectOf .digest32 (absorbedCall v bytes s)).initFlag = true :=
    (writeDigest_initFlag ..).trans (absorbedCall_initFlag v bytes s)
  rw [exec_of_ready hf32 (.inl hinit32), effectOf_digest64_digest32]

/-- Settles O45: the two DIGESTs leave the digests of the two calls. -/
theorem oneSequenceServesBothWidths : Obligations.OneSequenceServesBothWidths := fun v bytes s hf =>
  ⟨_, _, _, _, issueAll_call (i := .digest32) rfl hf v bytes, exec_digest64_after_digest32 hf v bytes,
    hashBytes_foldDigest hf v .w32 bytes, hashBytes_foldDigest hf v .w64 bytes,
    effectOf_digestInstr_digest v .w32 bytes s, effectOf_digestInstr_digest v .w64 bytes s⟩

/-! The digests the spec states (R157, R158), each the model's fold evaluated. -/

/-- Settles O41: the fold of no byte is the seed. -/
theorem emptyInputHashesToTheSeedsDigest : Obligations.EmptyInputHashesToTheSeedsDigest := fun _ hf =>
  ⟨exists_hashBytes_of_foldDigest_eq hf (by decide), exists_hashBytes_of_foldDigest_eq hf (by decide),
    exists_hashBytes_of_foldDigest_eq hf (by decide), exists_hashBytes_of_foldDigest_eq hf (by decide),
    exists_hashBytes_of_foldDigest_eq hf (by decide), exists_hashBytes_of_foldDigest_eq hf (by decide)⟩

/-- Settles O42: one step from the seed in each of the two orderings (90_conflicts.md C1). -/
theorem singleByteDigestsOfLetterA : Obligations.SingleByteDigestsOfLetterA := fun _ hf =>
  ⟨exists_hashBytes_of_foldDigest_eq hf (by decide), exists_hashBytes_of_foldDigest_eq hf (by decide)⟩

end Sys2Proof.Machine
end

section
/-! PROOFS. The faults of the command port (60_exceptions.md R170 to R174): the checks of a command word in their order,
the faulted block, and the commands that never fault. -/

namespace Sys2Proof.Machine

open Sys2Proof.SpecView

/-! Which check a word fails, and which command a legal word is (R174; 30_encoding.md R63, R65, R66). -/

theorem decode_of_illegalOp {w : CmdWord} (h : w.toNat / 0x1000 = 0 ∨ 5 ≤ w.toNat / 0x1000) :
    decode w = .error .illegalOpcode := by
  obtain ⟨-, -, -, -, -, -, -, -, hillegal⟩ := decodeFollowsTheDecodingRule w
  exact hillegal h

theorem decode_of_hasReservedBit {w : CmdWord} (h : hasReservedBit w) : decode w = .error .reservedBits := by
  obtain ⟨hop, hbit⟩ | ⟨hop, hbit⟩ | ⟨hop, hbit⟩ := h
  · exact decode_of_initWord_reserved hop hbit
  · exact decode_of_absorbWord_reserved hop hbit
  · exact decode_of_widthWord_reserved hop hbit

theorem decode_reservedVariantWord : decode 0x1003#16 = .error .reservedVariant := by decide

/-- The reading commands' words stand above INIT's. -/
theorem le_toNat_of_isReaderWord {w : CmdWord} (h : isReaderWord w) : 0x2000 ≤ w.toNat := by
  obtain ⟨hlo, -⟩ | rfl | rfl | rfl | rfl := h
  · exact hlo
  all_goals decide

theorem exists_reader_of_isReaderWord {w : CmdWord} (h : isReaderWord w) :
    ∃ i : Instr, readsAccumulator i = true ∧ encode i = w := by
  obtain ⟨i, -, rfl⟩ := exists_wellFormed_of_legalWord (.inr h)
  refine ⟨i, readsAccumulator_iff.mpr ?_, rfl⟩
  rintro v rfl
  have hle := le_toNat_of_isReaderWord h
  rw [encode_init_toNat] at hle
  omega

/-- The words that pass every check of R174 are the words of the commands the block is ready for. -/
theorem exists_ready_of_checked {w : CmdWord} {s : State}
    (h : isInitWord w ∨ (isReaderWord w ∧ s.initFlag = true)) :
    ∃ i : Instr, i.wellFormed = true ∧ encode i = w ∧ (s.initFlag = true ∨ ∃ v, i = .init v) := by
  obtain hw | ⟨hw, hinit⟩ := h
  · obtain ⟨v, hv, hword⟩ := exists_init_of_isInitWord hw
    exact ⟨.init v, bne_iff_ne.mpr hv, hword, .inr ⟨v, rfl⟩⟩
  · obtain ⟨i, hi, hword⟩ := exists_wellFormed_of_legalWord (.inr hw)
    exact ⟨i, hi, hword, .inl hinit⟩

/-! The flags after a command that runs. -/

theorem effectOf_faultFlag {i : Instr} (hw : i.wellFormed = true) (s : State) :
    (effectOf i s).faultFlag = s.faultFlag :=
  (effectOf_runFrame hw s).faultFlag

/-- INIT sets STATUS.INIT, and every other command keeps it. -/
theorem effectOf_initFlag {i : Instr} (hw : i.wellFormed = true) {s : State}
    (hi : s.initFlag = true ∨ ∃ v, i = .init v) : (effectOf i s).initFlag = true := by
  by_cases hv : ∃ v, i = .init v
  · obtain ⟨v, rfl⟩ := hv
    obtain ⟨var, -, heq⟩ := effectOf_init_wellFormed hw s
    rw [heq, startCall_initFlag]
  · exact (effectOf_ready hw hi).resolve_right hv

/-! What one command word leaves at an unfaulted block, by the check it fails. -/

theorem performWord_recordFault_of_code {w : CmdWord} {s : State} {c : FaultCause} {code : BitVec 32}
    (hcode : (causeCode c).setWidth 32 = code) (hf : s.faultFlag = false) (hd : decode w = .error c) :
    performWord w s = .next (recordFault code w s) := by
  rw [performWord_recordFault_of_decode_error hf hd, hcode]

theorem performWord_of_readerWord_noInit {w : CmdWord} {s : State} (hf : s.faultFlag = false) (hw : isReaderWord w)
    (hinit : s.initFlag = false) : performWord w s = .next (recordFault 4#32 w s) := by
  obtain ⟨i, hi, rfl⟩ := exists_reader_of_isReaderWord hw
  rw [performWord_of_decode_ok hf (decode_encode (wellFormed_of_readsAccumulator hi)), exec_reader_of_noInit hi hf hinit]

/-- A word past all four checks is performed, and leaves the block unfaulted. -/
theorem performWord_of_checked {w : CmdWord} {s : State} (hf : s.faultFlag = false)
    (hw : isInitWord w ∨ (isReaderWord w ∧ s.initFlag = true)) :
    ∃ i u, decode w = .ok i ∧ exec i s = .next u ∧ performWord w s = .next u ∧ u.faultFlag = false := by
  obtain ⟨i, hi, rfl, hready⟩ := exists_ready_of_checked hw
  have hexec : exec i s = .next (effectOf i s) := exec_of_ready hf hready
  exact ⟨i, effectOf i s, decode_encode hi, hexec, (performWord_of_decode_ok hf (decode_encode hi)).trans hexec,
    (effectOf_faultFlag hi s).trans hf⟩

/-- Settles O8: the step is the head word's own, and the decoder answers the first three faults, the command the fourth. -/
theorem commandWordCheckOrderAndFaultAction : Obligations.CommandWordCheckOrderAndFaultAction := by
  intro s w rest hport t
  rw [step_of_port_command hport]
  refine ⟨fun hf => performWord_of_fault hf, fun (hf : t.faultFlag = false) =>
    ⟨fun hop => ?illegalOp, fun hbit => ?reservedBits, ?reservedVariant, fun hw hinit => ?notInitialised,
      fun hw => ?performed⟩⟩
  case illegalOp => exact performWord_recordFault_of_code rfl hf (decode_of_illegalOp hop)
  case reservedBits => exact performWord_recordFault_of_code rfl hf (decode_of_hasReservedBit hbit)
  case reservedVariant =>
    rintro rfl
    exact performWord_recordFault_of_code rfl hf decode_reservedVariantWord
  case notInitialised => exact performWord_of_readerWord_noInit hf hw hinit
  case performed => exact performWord_of_checked hf hw

/-! The faulted block (R173). -/

/-- A step of a faulted block takes a command from the port and does nothing with it. -/
theorem step_of_fault {s : State} (hf : s.faultFlag = true) (hcmd : ∀ e ∈ s.port, ∃ w, e = .command w) :
    step s = .next { s with port := s.port.drop 1 } := by
  cases hport : s.port with
  | nil =>
    rw [step_of_port_nil hport, List.drop_nil, ← hport]
  | cons e rest =>
    obtain ⟨w, rfl⟩ := hcmd e (by simp [hport])
    exact (step_of_port_command hport).trans (performWord_of_fault hf)

theorem run_of_fault (n : Nat) {s : State} (hf : s.faultFlag = true) (hcmd : ∀ e ∈ s.port, ∃ w, e = .command w) :
    Host.Core.run Sys2Proof.core n s = .next ({ s with port := s.port.drop n } : State) := by
  induction n generalizing s with
  | zero => rfl
  | succ n ih =>
    have hrest : ∀ e ∈ s.port.drop 1, ∃ w, e = .command w := fun e he => hcmd e (List.mem_of_mem_drop he)
    rw [run_succ_of_next n (step_of_fault hf hcmd), ih (s := { s with port := s.port.drop 1 }) hf hrest,
      List.drop_drop, Nat.add_comm]

theorem endOfRun_of_fault {s : State} (hf : s.faultFlag = true) :
    endOfRun s = .fault (.commandFaulted s.cause s.fcmd) := by
  simp [endOfRun, hf]

/-- Settles O9, the runs by induction on their length. -/
theorem faultedBlockIgnoresEveryCommand : Obligations.FaultedBlockIgnoresEveryCommand :=
  ⟨fun i _ => exec_of_fault i, fun n _ => run_of_fault n, fun _ => endOfRun_of_fault⟩

/-! Legal commands at an initialised, unfaulted block (R170). -/

theorem performWord_of_legal {w : CmdWord} {i : Instr} {s : State} (hd : decode w = .ok i) (hinit : s.initFlag = true)
    (hf : s.faultFlag = false) : performWord w s = .next (effectOf i s) :=
  (performWord_of_decode_ok hf hd).trans (exec_of_ready hf (.inl hinit))

/-- A sequence of legal words keeps the block initialised and unfaulted, one word after the other. -/
theorem issueAll_of_legal {ws : List CmdWord} {s : State} (hws : ∀ w ∈ ws, ∃ i, decode w = .ok i)
    (hinit : s.initFlag = true) (hf : s.faultFlag = false) :
    ∃ t, issueAll ws s = .next t ∧ t.faultFlag = false ∧ t.initFlag = true := by
  induction ws generalizing s with
  | nil => exact ⟨s, rfl, hf, hinit⟩
  | cons w ws ih =>
    obtain ⟨⟨i, hd⟩, hrest⟩ := List.forall_mem_cons.mp hws
    have hw := wellFormed_of_decode hd
    rw [issueAll_cons_of_next ws (performWord_of_legal hd hinit hf)]
    exact ih hrest (effectOf_initFlag hw (.inl hinit)) ((effectOf_faultFlag hw s).trans hf)

/-- Settles O10: one word by the frame of its command, a sequence by induction on the words. -/
theorem legalCommandAtInitialisedBlockNeverFaults : Obligations.LegalCommandAtInitialisedBlockNeverFaults := by
  refine ⟨fun w i s hd hinit hf => ?_, fun ws s => issueAll_of_legal⟩
  have hw := wellFormed_of_decode hd
  have hframe := effectOf_runFrame hw s
  exact ⟨effectOf i s, performWord_of_legal hd hinit hf, hframe.faultFlag.trans hf, effectOf_initFlag hw (.inl hinit),
    hframe.cause, hframe.fcmd⟩

/-! Commands before INIT (R171). -/

/-- A command that faults where the block is ready for it is INIT of the reserved code. -/
theorem effectOf_cause_of_fault {i : Instr} {s : State} (hf : s.faultFlag = false)
    (hfault : (effectOf i s).faultFlag = true) : (effectOf i s).cause = 3#3 := by
  cases hw : i.wellFormed with
  | false => rw [effectOf_not_wellFormed hw, raiseFault_cause, causeCode]
  | true => simp [effectOf_faultFlag hw, hf] at hfault

/-- Settles O11: a reading command fails the check of STATUS.INIT, and INIT knows no such check. -/
theorem readersFaultBeforeInit : Obligations.ReadersFaultBeforeInit := by
  intro i s hf hinit
  refine ⟨fun hi => exec_reader_of_noInit hi hf hinit, fun t hi hexec hfault => ?_⟩
  have hready : ∃ v, i = .init v := by simpa [readsAccumulator_iff] using (Bool.eq_false_iff.mp hi)
  obtain rfl := eq_effectOf_of_exec hf (.inr hready) hexec
  exact effectOf_cause_of_fault hf hfault

end Sys2Proof.Machine
end

section
/-! PROOFS. Completion of every command and step, and reset (70_reset_and_hazards.md R190, R191, R196): what a reset
leaves, what no other step clears, and which words succeed before INIT. -/

namespace Sys2Proof.Machine

open Sys2Proof.SpecView

/-! Completion, and what becomes of the port (R196). -/

theorem exec_completes_port (i : Instr) (s : State) : ∃ t, exec i s = .next t ∧ t.port = s.port := by
  obtain ⟨act, hact, hexec⟩ := exec_eq_unlessFaulted i
  obtain ⟨t, ht⟩ := unlessFaulted_setPort hact s
  exact ⟨{ t with port := s.port }, hexec ▸ ht s.port, rfl⟩

theorem performWord_port {w : CmdWord} {s t : State} (h : performWord w s = .next t) : t.port = s.port := by
  obtain ⟨u, hu⟩ := performWord_setPort w s
  obtain rfl := Host.Outcome.next.inj (h.symm.trans (hu s.port))
  rfl

theorem step_port {s t : State} (h : step s = .next t) : t.port = s.port.drop 1 := by
  obtain ⟨hport, rfl⟩ | ⟨w, rest, hport, hword⟩ | ⟨e, rest, hport, -, rfl⟩ := step_cases h
  · simp [hport]
  · simp [hport, performWord_port hword]
  · simp [hport]

/-- Settles O7: a command is an effect that ignores the port, under the check of STATUS.FAULT; a step takes one entry. -/
theorem everyCommandAndStepCompletes : Obligations.EveryCommandAndStepCompletes := by
  refine ⟨exec_completes_port, fun s => ?_⟩
  obtain ⟨t, ht⟩ := step_completes s
  exact ⟨t, ht, step_port ht⟩

/-! A step that takes a reset (R190; 10_state.md R36). -/

theorem step_of_port_reset {s : State} {e : HostEvent} {rest : List HostEvent} (hport : s.port = e :: rest)
    (he : ∀ w, e ≠ .command w) : step s = .next (takeReset { s with port := rest }) := by
  cases e with
  | command w => exact absurd rfl (he w)
  | reset => simp [step, hport, takeEvent]
  | resetDuring w => simp [step, hport, takeEvent]

@[simp] theorem takeReset_reset : takeReset State.reset = State.reset := rfl

theorem takeReset_statusFields (s : State) :
    (takeReset s).initFlag = false ∧ (takeReset s).faultFlag = false ∧ (takeReset s).cause = 0#3 ∧
    (takeReset s).var = 0#2 :=
  ⟨reset_initFlag, reset_faultFlag, reset_cause, reset_var⟩

theorem hostRead_takeReset (s : State) :
    hostRead .res (takeReset s) = .next (.noValue .res) ∧ hostRead .dout (takeReset s) = .next (.noValue .dout) := by
  obtain ⟨-, -, -, hres, hdout⟩ := hostRead_of_state (takeReset s)
  exact ⟨hres reset_resWritten, hdout reset_dlen⟩

/-- INIT is what first writes the accumulators (R36; log entry 2). -/
theorem accumulators_holdNoValue {s : State} (hinit : s.initFlag = false) :
    s.holdsValue .acc32 = false ∧ s.holdsValue .acc64Lo = false ∧ s.holdsValue .acc64Hi = false :=
  ⟨hinit, hinit, hinit⟩

/-! What no command word clears (R190). -/

theorem performWord_initFlag {w : CmdWord} {s t : State} (h : performWord w s = .next t)
    (hinit : s.initFlag = true) : t.initFlag = true := by
  obtain ⟨-, rfl⟩ | ⟨-, c, -, rfl⟩ | ⟨-, i, hd, hexec⟩ := performWord_cases h
  · exact hinit
  · exact (raiseFault_initFlag s c w).trans hinit
  · obtain rfl | ⟨-, c, rfl⟩ | ⟨-, hw, rfl⟩ := exec_cases_fault_apart hexec
    · exact hinit
    · exact (raiseFault_initFlag s c _).trans hinit
    · exact effectOf_initFlag hw (.inl hinit)

theorem performWord_eq_of_fault {w : CmdWord} {s t : State} (h : performWord w s = .next t)
    (hf : s.faultFlag = true) : t = s :=
  Host.Outcome.next.inj (h.symm.trans (performWord_of_fault hf))

/-- Settles O12: power-on and every reset event leave `takeReset` of some state; an idle step changes nothing, and a
command word clears neither INIT nor the record of a fault. -/
theorem resetLeavesTheSpecifiedValues : Obligations.ResetLeavesTheSpecifiedValues := by
  refine ⟨fun t ht => ?left, fun s e rest hport he => ⟨_, step_of_port_reset hport he, rfl⟩,
    fun s t hstep hport => ?kept⟩
  case left =>
    obtain ⟨s, rfl⟩ : ∃ s, t = takeReset s := by
      obtain rfl | ⟨s, e, rest, hport, he, hstep, -⟩ := ht
      · exact ⟨State.reset, takeReset_reset.symm⟩
      · exact ⟨_, Host.Outcome.next.inj (hstep.symm.trans (step_of_port_reset hport he))⟩
    obtain ⟨hinit, hfault, hcause, hvar⟩ := takeReset_statusFields s
    obtain ⟨hres, hdout⟩ := hostRead_takeReset s
    exact ⟨takeReset_status s, hinit, hfault, hcause, hvar, takeReset_fcmd s, takeReset_dlen s, hres, hdout,
      accumulators_holdNoValue hinit⟩
  case kept =>
    obtain hidle | ⟨w, rest, hcommand⟩ := hport
    · obtain rfl := Host.Outcome.next.inj (hstep.symm.trans (step_of_port_nil hidle))
      exact ⟨id, fun hf => ⟨hf, rfl, rfl⟩⟩
    · have hword := (step_of_port_command hcommand).symm.trans hstep
      refine ⟨fun hinit => performWord_initFlag hword hinit, fun hf => ?_⟩
      obtain rfl := performWord_eq_of_fault hword hf
      exact ⟨hf, rfl, rfl⟩

/-! The words at a block before INIT (R191; 60_exceptions.md R171). -/

/-- A word that is not INIT's faults: a reading command's by the check of STATUS.INIT, any other by the decoder. -/
theorem performWord_raises_of_noInit {w : CmdWord} {s : State} (hf : s.faultFlag = false)
    (hinit : s.initFlag = false) (hw : ¬ isInitWord w) : ∃ c, performWord w s = .next (raiseFault c w s) := by
  by_cases hr : isReaderWord w
  · refine ⟨.notInitialised, ?_⟩
    rw [raiseFault_eq_recordFault]
    exact performWord_of_readerWord_noInit hf hr hinit
  · obtain ⟨c, hd⟩ := exists_decode_error_of_not_legalWord (not_or.mpr ⟨hw, hr⟩)
    exact ⟨c, performWord_of_decode_error hf hd⟩

/-- Settles O13: an INIT word passes every check, and any other word fails one. -/
theorem onlyInitSucceedsAfterReset : Obligations.OnlyInitSucceedsAfterReset := by
  intro w s hf hinit
  by_cases hw : isInitWord w
  · obtain ⟨_, t, -, -, ht, hft⟩ := performWord_of_checked hf (.inl hw)
    exact ⟨t, ht, iff_of_true hft hw⟩
  · obtain ⟨c, ht⟩ := performWord_raises_of_noInit hf hinit hw
    exact ⟨_, ht, iff_of_false (by simp) hw⟩

end Sys2Proof.Machine
end
